-- ==== Sys2Proof/Word.lean ====
section
/-! DEFINITION. The word types of the CHIP-8 engine (spec 00_scope R5, R7: every stored value is an unsigned
integer of a stated width). -/

namespace Sys2Proof

/-- A memory byte, a general register, a timer, an 8-bit immediate `NN` (R5 `REG_W`, R91). -/
abbrev Byte := BitVec 8

/-- The instruction word, `PC`, `I`, a call-stack entry (R5 `PC_W`, `I_W`, R28, R90). -/
abbrev Word := BitVec 16

/-- A register-index field `X` or `Y`: every value names a register (R20, R91). -/
abbrev RegIdx := BitVec 4

/-- The 4-bit field `N` (R91). -/
abbrev Nibble := BitVec 4

/-- The 12-bit address field `NNN` (R91). -/
abbrev Addr := BitVec 12

/-- A key index, virtual or physical, 0 to 15 (R6, R40). -/
abbrev KeyIdx := BitVec 4

end Sys2Proof
end

