-- ==== Sys2Proof/Syntax.lean ====
section
/-! DEFINITION. The instructions: one constructor per row of spec/opcode_table.json (30_encoding R96, 35 rows;
46_unrecognized R241: the 34 instructions and the fallback that carries the word). -/

namespace Sys2Proof

/-- A decoded instruction. Field names are those of R91; an argument `y` of a shift is the field that is
present in the word and ignored (R92). -/
inductive Instr where
  /-- `00E0` clear-screen, R200. -/
  | cls
  /-- `00EE` return, R140. -/
  | ret
  /-- `1NNN` jump, R141. -/
  | jpNnn (nnn : Addr)
  /-- `2NNN` call, R142. -/
  | callNnn (nnn : Addr)
  /-- `3XNN` skip-if-equal-immediate, R146. -/
  | seVxNn (x : RegIdx) (nn : Byte)
  /-- `4XNN` skip-if-not-equal-immediate, R147. -/
  | sneVxNn (x : RegIdx) (nn : Byte)
  /-- `5XY0` skip-if-registers-equal, R148. -/
  | seVxVy (x y : RegIdx)
  /-- `6XNN` load-immediate, R162. -/
  | ldVxNn (x : RegIdx) (nn : Byte)
  /-- `7XNN` add-immediate, R163. -/
  | addVxNn (x : RegIdx) (nn : Byte)
  /-- `8XY0` assign, R164. -/
  | ldVxVy (x y : RegIdx)
  /-- `8XY1` bitwise-or, R165. -/
  | orVxVy (x y : RegIdx)
  /-- `8XY2` bitwise-and, R166. -/
  | andVxVy (x y : RegIdx)
  /-- `8XY3` bitwise-xor, R167. -/
  | xorVxVy (x y : RegIdx)
  /-- `8XY4` add-with-carry, R168. -/
  | addVxVy (x y : RegIdx)
  /-- `8XY5` sub-with-borrow, R169. -/
  | subVxVy (x y : RegIdx)
  /-- `8XY6` shift-right, R170; `y` is ignored. -/
  | shrVx (x y : RegIdx)
  /-- `8XY7` reverse-sub-with-borrow, R171. -/
  | subnVxVy (x y : RegIdx)
  /-- `8XYE` shift-left, R172; `y` is ignored. -/
  | shlVx (x y : RegIdx)
  /-- `9XY0` skip-if-registers-not-equal, R149. -/
  | sneVxVy (x y : RegIdx)
  /-- `ANNN` set-index, R180. -/
  | ldINnn (nnn : Addr)
  /-- `BNNN` jump-with-offset, R143. -/
  | jpV0Nnn (nnn : Addr)
  /-- `CXNN` random-and, R173. -/
  | rndVxNn (x : RegIdx) (nn : Byte)
  /-- `DXYN` draw-sprite, R201. -/
  | drwVxVyN (x y : RegIdx) (n : Nibble)
  /-- `EX9E` skip-if-key-pressed, R220. -/
  | skpVx (x : RegIdx)
  /-- `EXA1` skip-if-key-not-pressed, R221. -/
  | sknpVx (x : RegIdx)
  /-- `FX07` load-delay-timer, R223. -/
  | ldVxDt (x : RegIdx)
  /-- `FX0A` await-key, R222. -/
  | ldVxK (x : RegIdx)
  /-- `FX15` set-delay-timer, R224. -/
  | ldDtVx (x : RegIdx)
  /-- `FX18` set-sound-timer, R225. -/
  | ldStVx (x : RegIdx)
  /-- `FX1E` add-to-index, R181. -/
  | addIVx (x : RegIdx)
  /-- `FX29` sprite-address, R182. -/
  | ldFVx (x : RegIdx)
  /-- `FX33` store-bcd, R183. -/
  | ldBVx (x : RegIdx)
  /-- `FX55` register-dump, R184. -/
  | ldImemVx (x : RegIdx)
  /-- `FX65` register-load, R185. -/
  | ldVxImem (x : RegIdx)
  /-- Any word that matches no other row, R240; it carries the word. -/
  | unknown (w : Word)
deriving DecidableEq, Repr

end Sys2Proof
end

