-- ==== Sys2Proof/WellFormed.lean ====
section
/-! DEFINITION. Which terms of `Instr` are instructions. Every operand field has exactly the width the encoding
gives it and every value of it is legal (30_encoding R91, R95), so the one check is on the fallback: the word it
carries must be one that no row of the table matches. It is written here from R100, the list of the six sets of
unrecognized words, and not from the decoder, so that the two can be held against each other. -/

namespace Sys2Proof

/-- The six sets of unrecognized words, 30_encoding R100, row by row of its table. `w.toNat / 4096` is the
high nibble, `w.toNat % 16` is `N`, `w.toNat % 256` is `NN`, `w.toNat % 4096` is `NNN`. -/
def unrecognized (w : Word) : Bool :=
  let op := w.toNat / 4096
  let n := w.toNat % 16
  let nn := w.toNat % 256
  let nnn := w.toNat % 4096
  (op == 0x0 && nnn != 0x0E0 && nnn != 0x0EE) ||
  (op == 0x5 && n != 0) ||
  (op == 0x8 && (n == 0x8 || n == 0x9 || n == 0xA || n == 0xB || n == 0xC || n == 0xD || n == 0xF)) ||
  (op == 0x9 && n != 0) ||
  (op == 0xE && nn != 0x9E && nn != 0xA1) ||
  (op == 0xF && nn != 0x07 && nn != 0x0A && nn != 0x15 && nn != 0x18 && nn != 0x1E && nn != 0x29 &&
    nn != 0x33 && nn != 0x55 && nn != 0x65)

/-- A term is well formed when it is one of the 34 instructions, or the fallback carrying an unrecognized word
(R98: the fallback is selected only when no other row matches). -/
def Instr.wellFormed : Instr → Bool
  | .cls | .ret | .jpNnn _ | .callNnn _ | .seVxNn _ _ | .sneVxNn _ _ | .seVxVy _ _ | .ldVxNn _ _
  | .addVxNn _ _ | .ldVxVy _ _ | .orVxVy _ _ | .andVxVy _ _ | .xorVxVy _ _ | .addVxVy _ _ | .subVxVy _ _
  | .shrVx _ _ | .subnVxVy _ _ | .shlVx _ _ | .sneVxVy _ _ | .ldINnn _ | .jpV0Nnn _ | .rndVxNn _ _
  | .drwVxVyN _ _ _ | .skpVx _ | .sknpVx _ | .ldVxDt _ | .ldVxK _ | .ldDtVx _ | .ldStVx _ | .addIVx _
  | .ldFVx _ | .ldBVx _ | .ldImemVx _ | .ldVxImem _ => true
  | .unknown w => unrecognized w

end Sys2Proof
end

