-- ==== Sys2Proof/Decode.lean ====
section
/-! DEFINITION. The decoder and the encoder (spec 30_encoding). The numeric encodings are the spec's own,
supplied from general knowledge (GK1, GK2, GK3): PRESUMED, unsafe (log entry 1). -/

namespace Sys2Proof

/-! ## Fields, R91 -/

/-- `op = w[15:12]`. -/
def opOf (w : Word) : Nibble := w.extractLsb' 12 4
/-- `X = w[11:8]`. -/
def xOf (w : Word) : RegIdx := w.extractLsb' 8 4
/-- `Y = w[7:4]`. -/
def yOf (w : Word) : RegIdx := w.extractLsb' 4 4
/-- `N = w[3:0]`. -/
def nOf (w : Word) : Nibble := w.extractLsb' 0 4
/-- `NN = w[7:0]`. -/
def nnOf (w : Word) : Byte := w.extractLsb' 0 8
/-- `NNN = w[11:0]`. -/
def nnnOf (w : Word) : Addr := w.extractLsb' 0 12

/-! ## The decoder, R98: switch on `op`, then on the secondary field. It is exact (D3) and total on all words. -/

/-- Group 0: the whole word is compared. -/
def decodeGroup0 (w : Word) : Instr :=
  if w = 0x00E0 then .cls else if w = 0x00EE then .ret else .unknown w

/-- Group 8: the low nibble over 0 to 7 and 0xE. -/
def decodeGroup8 (w : Word) : Instr :=
  if nOf w = 0x0 then .ldVxVy (xOf w) (yOf w)
  else if nOf w = 0x1 then .orVxVy (xOf w) (yOf w)
  else if nOf w = 0x2 then .andVxVy (xOf w) (yOf w)
  else if nOf w = 0x3 then .xorVxVy (xOf w) (yOf w)
  else if nOf w = 0x4 then .addVxVy (xOf w) (yOf w)
  else if nOf w = 0x5 then .subVxVy (xOf w) (yOf w)
  else if nOf w = 0x6 then .shrVx (xOf w) (yOf w)
  else if nOf w = 0x7 then .subnVxVy (xOf w) (yOf w)
  else if nOf w = 0xE then .shlVx (xOf w) (yOf w)
  else .unknown w

/-- Group E: the low byte over 9E and A1. -/
def decodeGroupE (w : Word) : Instr :=
  if nnOf w = 0x9E then .skpVx (xOf w) else if nnOf w = 0xA1 then .sknpVx (xOf w) else .unknown w

/-- Group F: the low byte over nine values. -/
def decodeGroupF (w : Word) : Instr :=
  if nnOf w = 0x07 then .ldVxDt (xOf w)
  else if nnOf w = 0x0A then .ldVxK (xOf w)
  else if nnOf w = 0x15 then .ldDtVx (xOf w)
  else if nnOf w = 0x18 then .ldStVx (xOf w)
  else if nnOf w = 0x1E then .addIVx (xOf w)
  else if nnOf w = 0x29 then .ldFVx (xOf w)
  else if nnOf w = 0x33 then .ldBVx (xOf w)
  else if nnOf w = 0x55 then .ldImemVx (xOf w)
  else if nnOf w = 0x65 then .ldVxImem (xOf w)
  else .unknown w

/-- `Decode(w)` of 40_step_cycle R123: a pure and total function of the word. -/
def decode (w : Word) : Instr :=
  if opOf w = 0x0 then decodeGroup0 w
  else if opOf w = 0x1 then .jpNnn (nnnOf w)
  else if opOf w = 0x2 then .callNnn (nnnOf w)
  else if opOf w = 0x3 then .seVxNn (xOf w) (nnOf w)
  else if opOf w = 0x4 then .sneVxNn (xOf w) (nnOf w)
  else if opOf w = 0x5 then if nOf w = 0x0 then .seVxVy (xOf w) (yOf w) else .unknown w
  else if opOf w = 0x6 then .ldVxNn (xOf w) (nnOf w)
  else if opOf w = 0x7 then .addVxNn (xOf w) (nnOf w)
  else if opOf w = 0x8 then decodeGroup8 w
  else if opOf w = 0x9 then if nOf w = 0x0 then .sneVxVy (xOf w) (yOf w) else .unknown w
  else if opOf w = 0xA then .ldINnn (nnnOf w)
  else if opOf w = 0xB then .jpV0Nnn (nnnOf w)
  else if opOf w = 0xC then .rndVxNn (xOf w) (nnOf w)
  else if opOf w = 0xD then .drwVxVyN (xOf w) (yOf w) (nOf w)
  else if opOf w = 0xE then decodeGroupE w
  else decodeGroupF w

/-! ## Bytes: the word is stored high byte first (20_memory R62) -/

/-- The instruction word of the byte at `pc0` and the byte at `pc0 + 1` (R62). -/
def wordOf (hi lo : Byte) : Word := hi ++ lo

/-- The byte that stands at the lower address (R62). -/
def hiByte (w : Word) : Byte := w.extractLsb' 8 8

/-- The byte that stands at the higher address (R62). -/
def loByte (w : Word) : Byte := w.extractLsb' 0 8

/-- The two bytes of a word in address order (R62). -/
def bytesOf (w : Word) : List Byte := [hiByte w, loByte w]

/-- Why a list of bytes is no instruction. -/
inductive DecodeRefusal where
  /-- Fewer than two bytes are left: every instruction is two bytes long (R90). -/
  | truncated
deriving DecidableEq, Repr

/-- Decode the first instruction of a list of bytes and give the rest of the list. Total: any two bytes are an
instruction, and a shorter list is rejected by name. -/
def decodeBytes : List Byte → Except DecodeRefusal (Instr × List Byte)
  | hi :: lo :: rest => .ok (decode (wordOf hi lo), rest)
  | [_] => .error .truncated
  | [] => .error .truncated

/-! ## The encoder, from the patterns of R96 and the layouts of R92 -/

/-- Layout `NNN` of R92. -/
def layNnn (op : Nibble) (nnn : Addr) : Word := op ++ nnn

/-- Layout `XNN` of R92. -/
def layXnn (op : Nibble) (x : RegIdx) (nn : Byte) : Word := op ++ x ++ nn

/-- Layout `XYN` of R92. -/
def layXyn (op : Nibble) (x y : RegIdx) (n : Nibble) : Word := op ++ x ++ y ++ n

/-- Layout `XSUB` of R92. -/
def layXsub (op : Nibble) (x : RegIdx) (sub : Byte) : Word := op ++ x ++ sub

/-- The word of an instruction. For the fallback it is the word the instruction carries. -/
def encode : Instr → Word
  | .cls => 0x00E0
  | .ret => 0x00EE
  | .jpNnn nnn => layNnn 0x1 nnn
  | .callNnn nnn => layNnn 0x2 nnn
  | .seVxNn x nn => layXnn 0x3 x nn
  | .sneVxNn x nn => layXnn 0x4 x nn
  | .seVxVy x y => layXyn 0x5 x y 0x0
  | .ldVxNn x nn => layXnn 0x6 x nn
  | .addVxNn x nn => layXnn 0x7 x nn
  | .ldVxVy x y => layXyn 0x8 x y 0x0
  | .orVxVy x y => layXyn 0x8 x y 0x1
  | .andVxVy x y => layXyn 0x8 x y 0x2
  | .xorVxVy x y => layXyn 0x8 x y 0x3
  | .addVxVy x y => layXyn 0x8 x y 0x4
  | .subVxVy x y => layXyn 0x8 x y 0x5
  | .shrVx x y => layXyn 0x8 x y 0x6
  | .subnVxVy x y => layXyn 0x8 x y 0x7
  | .shlVx x y => layXyn 0x8 x y 0xE
  | .sneVxVy x y => layXyn 0x9 x y 0x0
  | .ldINnn nnn => layNnn 0xA nnn
  | .jpV0Nnn nnn => layNnn 0xB nnn
  | .rndVxNn x nn => layXnn 0xC x nn
  | .drwVxVyN x y n => layXyn 0xD x y n
  | .skpVx x => layXsub 0xE x 0x9E
  | .sknpVx x => layXsub 0xE x 0xA1
  | .ldVxDt x => layXsub 0xF x 0x07
  | .ldVxK x => layXsub 0xF x 0x0A
  | .ldDtVx x => layXsub 0xF x 0x15
  | .ldStVx x => layXsub 0xF x 0x18
  | .addIVx x => layXsub 0xF x 0x1E
  | .ldFVx x => layXsub 0xF x 0x29
  | .ldBVx x => layXsub 0xF x 0x33
  | .ldImemVx x => layXsub 0xF x 0x55
  | .ldVxImem x => layXsub 0xF x 0x65
  | .unknown w => w

/-! ## The opcode map by mask and match, R96 -/

/-- The `mask` column of R96. -/
def maskOf : Instr → Word
  | .cls | .ret => 0xFFFF
  | .jpNnn _ | .callNnn _ | .seVxNn _ _ | .sneVxNn _ _ | .ldVxNn _ _ | .addVxNn _ _ | .ldINnn _ | .jpV0Nnn _
  | .rndVxNn _ _ | .drwVxVyN _ _ _ => 0xF000
  | .seVxVy _ _ | .ldVxVy _ _ | .orVxVy _ _ | .andVxVy _ _ | .xorVxVy _ _ | .addVxVy _ _ | .subVxVy _ _
  | .shrVx _ _ | .subnVxVy _ _ | .shlVx _ _ | .sneVxVy _ _ => 0xF00F
  | .skpVx _ | .sknpVx _ | .ldVxDt _ | .ldVxK _ | .ldDtVx _ | .ldStVx _ | .addIVx _ | .ldFVx _ | .ldBVx _
  | .ldImemVx _ | .ldVxImem _ => 0xF0FF
  | .unknown _ => 0x0000

/-- The `match` column of R96. -/
def matchOf : Instr → Word
  | .cls => 0x00E0
  | .ret => 0x00EE
  | .jpNnn _ => 0x1000
  | .callNnn _ => 0x2000
  | .seVxNn _ _ => 0x3000
  | .sneVxNn _ _ => 0x4000
  | .seVxVy _ _ => 0x5000
  | .ldVxNn _ _ => 0x6000
  | .addVxNn _ _ => 0x7000
  | .ldVxVy _ _ => 0x8000
  | .orVxVy _ _ => 0x8001
  | .andVxVy _ _ => 0x8002
  | .xorVxVy _ _ => 0x8003
  | .addVxVy _ _ => 0x8004
  | .subVxVy _ _ => 0x8005
  | .shrVx _ _ => 0x8006
  | .subnVxVy _ _ => 0x8007
  | .shlVx _ _ => 0x800E
  | .sneVxVy _ _ => 0x9000
  | .ldINnn _ => 0xA000
  | .jpV0Nnn _ => 0xB000
  | .rndVxNn _ _ => 0xC000
  | .drwVxVyN _ _ _ => 0xD000
  | .skpVx _ => 0xE09E
  | .sknpVx _ => 0xE0A1
  | .ldVxDt _ => 0xF007
  | .ldVxK _ => 0xF00A
  | .ldDtVx _ => 0xF015
  | .ldStVx _ => 0xF018
  | .addIVx _ => 0xF01E
  | .ldFVx _ => 0xF029
  | .ldBVx _ => 0xF033
  | .ldImemVx _ => 0xF055
  | .ldVxImem _ => 0xF065
  | .unknown _ => 0x0000

/-- The `mask` and `match` of rows 1 to 34 of R96, in the table's order. -/
def opcodeRows : List (Word × Word) :=
  [(0xFFFF, 0x00E0), (0xFFFF, 0x00EE), (0xF000, 0x1000), (0xF000, 0x2000), (0xF000, 0x3000),
   (0xF000, 0x4000), (0xF00F, 0x5000), (0xF000, 0x6000), (0xF000, 0x7000), (0xF00F, 0x8000),
   (0xF00F, 0x8001), (0xF00F, 0x8002)] ++
  [(0xF00F, 0x8003), (0xF00F, 0x8004), (0xF00F, 0x8005), (0xF00F, 0x8006), (0xF00F, 0x8007),
   (0xF00F, 0x800E), (0xF00F, 0x9000), (0xF000, 0xA000), (0xF000, 0xB000), (0xF000, 0xC000),
   (0xF000, 0xD000)] ++
  [(0xF0FF, 0xE09E), (0xF0FF, 0xE0A1), (0xF0FF, 0xF007), (0xF0FF, 0xF00A), (0xF0FF, 0xF015),
   (0xF0FF, 0xF018), (0xF0FF, 0xF01E), (0xF0FF, 0xF029), (0xF0FF, 0xF033), (0xF0FF, 0xF055),
   (0xF0FF, 0xF065)]

/-- A word selects a row when `w & mask = match` (R96). -/
def rowMatches (w : Word) (row : Word × Word) : Bool := w &&& row.1 == row.2

/-- The instruction the decoder reads from an instruction whose bits are `w`, numbered as
spec/opcode_table.json numbers them (bit 0 the least significant bit of the one word): the bits above `nbits`
are 0, the word is laid out high byte first (R62), and the bytes are decoded. No instruction is longer than 16
bits (R90). -/
def decodeTableWord (nbits w : Nat) : Option Instr :=
  if nbits ≤ 16 then
    match decodeBytes (bytesOf (BitVec.ofNat 16 (w % 2 ^ nbits))) with
    | .ok (i, []) => some i
    | .ok (_, _ :: _) => none
    | .error _ => none
  else none

end Sys2Proof
end

