-- ==== Sys2Proof/Config.lean ====
section
/-! DEFINITION. What is fixed for the machine: the sizes of spec 00_scope R5, the two open parameters of R6
(`FONT`, `KEYMAP`), and the free values of the inputs. An `opaque` constant here has no body: no proof can see
its value, so a claim that holds holds for every value. -/

namespace Sys2Proof.Config

/-- `MEM_SIZE` of R5: addresses 0x000 to 0xFFF. -/
@[simp] abbrev memSize : Nat := 4096

/-- `BASE` of R5: where the program image starts, and the reset value of `PC`. -/
@[simp] abbrev base : Nat := 0x200

/-- `IMAGE_MAX` of R5: the longest program image, in bytes. -/
@[simp] abbrev imageMax : Nat := 3584

/-- The length of `FONT` (R6): 80 bytes at 0x000 to 0x04F. -/
@[simp] abbrev fontSize : Nat := 80

/-- `FLAG_REG` of R5: the index of the flag register `VF`. -/
@[simp] abbrev flagReg : RegIdx := 15

/-- `GLYPH_STRIDE` of R5. -/
@[simp] abbrev glyphStride : Nat := 5

/-- The open parameter `FONT` (R6, R70, decision D13): the 80 bytes placed at 0x000 to 0x04F at reset. The spec
gives no contents; DESIGN CHOICE, safe (log entry 2). -/
opaque font : Vector Byte 80

/-- The conventional hexadecimal glyphs, digit by digit, five bytes each (93_implementation_defined GK5). PRESUMED: the
spec carries them from general knowledge and no rule rests on them; they are one `FONT` a launch may pass, and no
definition of the machine uses them (log entry 2). Safe. -/
def conventionalFont : Vector Byte 80 := #v[
  0xF0, 0x90, 0x90, 0x90, 0xF0,   0x20, 0x60, 0x20, 0x20, 0x70,
  0xF0, 0x10, 0xF0, 0x80, 0xF0,   0xF0, 0x10, 0xF0, 0x10, 0xF0,
  0x90, 0x90, 0xF0, 0x10, 0x10,   0xF0, 0x80, 0xF0, 0x10, 0xF0,
  0xF0, 0x80, 0xF0, 0x90, 0xF0,   0xF0, 0x10, 0x20, 0x40, 0x40,
  0xF0, 0x90, 0xF0, 0x90, 0xF0,   0xF0, 0x90, 0xF0, 0x10, 0xF0,
  0xF0, 0x90, 0xF0, 0x90, 0x90,   0xE0, 0x90, 0xE0, 0x90, 0xE0,
  0xF0, 0x80, 0x80, 0x80, 0xF0,   0xE0, 0x90, 0x90, 0x90, 0xE0,
  0xF0, 0x80, 0xF0, 0x80, 0xF0,   0xF0, 0x80, 0xF0, 0x80, 0x80]

/-- The open parameter `KEYMAP` (R6, R40, decision D14): from virtual key index to physical input index.
The spec gives no contents; DESIGN CHOICE, safe (log entry 3). -/
opaque keymap : Vector KeyIdx 16

/-- Free value: the `KEYS` snapshot of the `n`-th host turn that no script gives (R40, U16); log entry 4. -/
opaque freeKeys : Nat → Vector Bool 16

/-- Free value: the `TICK` bit of the `n`-th host turn that no script gives (R44, U7); log entry 4. -/
opaque freeTick : Nat → Bool

/-- Free value: the `RND` byte of the `n`-th host turn that no script gives (R45, U6); log entry 4. -/
opaque freeRnd : Nat → Byte

/-- Free value: whether the host asserts `DIRTY_CLEAR` in the `n`-th host turn that no script gives (R42);
log entry 4. -/
opaque freeDirtyClear : Nat → Bool

end Sys2Proof.Config
end

