-- ==== Sys2Proof/Machine/State.lean ====
section
/-! DEFINITION. The state of the engine as plain data: every element of spec 10_state, the inputs of the step it
has sampled, and two fields of the model's own (`script`, `draws`; log entry 4). -/

namespace Sys2Proof.Machine

/-- `MEM` as (address, byte) pairs in canonical form: addresses strictly rising, no entry equal to what an
unlisted address reads as (`Memory.unlisted`, `Memory.wf` in Machine/Ops.lean). DESIGN CHOICE, safe (log entry 6). -/
abbrev Memory := List Host.Cell

/-- `FONT`: the 80 bytes at 0x000 to 0x04F right after reset (00_scope R6, 20_memory R68 R70). -/
abbrev Font := Vector Byte 80

/-- `FB`: 32 rows of 64 one-bit pixels, `FB[y][x]` (10_state R33). -/
abbrev Frame := Vector (Vector Bool 64) 32

/-- `FAULT.cause` (10_state R47, 60_exceptions R250). -/
inductive FaultCause where
  /-- Code 0: the engine is running. -/
  | noFault
  /-- Code 1: a call with 16 entries in use (R251). -/
  | stackOverflow
  /-- Code 2: a return with an empty stack (R252). -/
  | stackUnderflow
  /-- Code 3: a fetch at `PC > 0x0FFE` (R253). -/
  | fetchBounds
  /-- Code 4: a fetch at an odd `PC` in range (R254). -/
  | misalignedFetch
  /-- Code 5: a data span not inside 0..4095 (R255). -/
  | dataBounds
  /-- Code 6: a key skip with `V[X] > 15` (R256). -/
  | keyIndexRange
deriving DecidableEq, Repr

/-- The `FAULT` record (10_state R47). -/
structure FaultRecord where
  cause : FaultCause
  pc : Word
  info : Word
deriving DecidableEq, Repr

/-- The `REPORT` output of a step (10_state R46). -/
structure Report where
  unknownValid : Bool
  unknownPc : Word
  unknownWord : Word
  keywait : Bool
deriving DecidableEq, Repr

/-- What the host does between two steps and presents to the next one: the `KEYS`, `TICK` and `RND` inputs, and
whether it asserts `DIRTY_CLEAR` (10_state R39 to R45, 20_memory R76). -/
structure HostTurn where
  keys : Vector Bool 16
  tick : Bool
  rnd : Byte
  dirtyClear : Bool
deriving DecidableEq, Repr

/-- The state. -/
structure State where
  /-- `V[0..15]`, R20; `V[15]` is `VF`, R22. -/
  v : Vector Byte 16
  /-- `I`, R27. -/
  index : Word
  /-- `PC`, R24. -/
  pc : Word
  /-- `SP`, the number of entries in use, 0..16, R29. -/
  sp : Fin 17
  /-- `STACK[0..15]`, R28. -/
  stack : Vector Word 16
  /-- `MEM`, R31. -/
  mem : Memory
  /-- `FB`, R33. -/
  fb : Frame
  /-- `DIRTY`, R34. -/
  dirty : Bool
  /-- `DT`, R35. -/
  dt : Byte
  /-- `ST`, R36. -/
  st : Byte
  /-- `AUDIO`, R37: a register, written by the timer service only. -/
  audio : Bool
  /-- `FAULT`, R47. -/
  fault : FaultRecord
  /-- `REPORT`, R46. -/
  report : Report
  /-- `FONT`, latched at reset (00_scope R6, 20_memory R70, 70_reset R290): what an address of 0x000 to 0x04F that
  `mem` does not list reads as. -/
  font : Font
  /-- `KEYMAP`, latched at reset (R40, 70_reset R290). -/
  keymap : Vector KeyIdx 16
  /-- `KEYS` as sampled when the step began, indexed by physical input (R39, R40). -/
  keys : Vector Bool 16
  /-- `TICK` as sampled when the step began (R44). -/
  tick : Bool
  /-- `RND` as sampled when the step began (R45). -/
  rnd : Byte
  /-- MODEL'S OWN (log entry 4): the host turns of the coming steps, first one first; when none is left the
  turn is a free value. -/
  script : List HostTurn
  /-- MODEL'S OWN (log entry 4): how many free host turns have been drawn. -/
  draws : Nat
deriving DecidableEq, Repr

/-- Faults of the host's interface. There are none: every fault of the spec is an entry into the halted state,
which is a next state with `FAULT` written (60_exceptions R260), so no meaning and no step raises one. Nothing
is unsafe about an outcome that never occurs (DESIGN CHOICE, safe, log entry 10). -/
inductive Fault where
deriving DecidableEq, Repr

/-- Refusals. -/
inductive Refusal where
  /-- An instruction that has no meaning yet; raised by an arm of `exec` only. Safe: the machine stops. -/
  | notModelled (mnemonic : String)
  /-- A RESET that breaks a precondition of 70_reset R291; raised by the host operation `perform` in
  Machine/HostPort.lean, never by an instruction or a step. DESIGN CHOICE (log entry 8), safe: the spec describes no such launch. -/
  | notALaunch
deriving DecidableEq, Repr

/-- The host's outcome over these types. -/
abbrev Result := Host.Outcome State Fault Refusal

/-- The machine right after reset (70_reset R290) with an empty image, `FONT = Config.font` and
`KEYMAP = Config.keymap`; no program is placed. Memory lists nothing: an unlisted address reads as its reset
contents. The sampled inputs have no reset value in the spec (DESIGN CHOICE, unsafe, log entry 5), the model's own
fields start empty (DESIGN CHOICE, safe, log entry 4). -/
def State.reset : State where
  v := Vector.replicate 16 0
  index := 0x0000
  pc := 0x0200
  sp := 0
  stack := Vector.replicate 16 0
  mem := []
  fb := Vector.replicate 32 (Vector.replicate 64 false)
  dirty := false
  dt := 0
  st := 0
  audio := false
  fault := ⟨.noFault, 0, 0⟩
  report := ⟨false, 0, 0, false⟩
  font := Config.font
  keymap := Config.keymap
  keys := Vector.replicate 16 false
  tick := false
  rnd := 0
  script := []
  draws := 0

end Sys2Proof.Machine
end

