-- ==== Sys2Proof/Machine/Ops.lean ====
section
/-! DEFINITION. The named operations over memory, registers, program counter, stack, framebuffer and host inputs,
and taking a fault as one shared operation. Every meaning is written over these. -/

namespace Sys2Proof.Machine

/-! ## Memory (20_memory R60 to R70) -/

/-- What an address that is not listed reads as: its contents after a reset with an empty image, which are
`FONT` at 0x000 to 0x04F and zero above (R68, R70). -/
def Memory.unlisted (f : Font) (a : Nat) : Byte := if h : a < 80 then f[a] else 0

/-- The listed byte at `a`, or the unlisted one. The address is not checked here (00_scope R9). -/
def Memory.read (f : Font) : Memory → Nat → Byte
  | [], a => Memory.unlisted f a
  | (c, d) :: m, a => if a = c then d else Memory.read f m a

/-- Put the pair `(a, b)` before `m`, unless `b` is what an unlisted `a` reads as. -/
def Memory.consCell (f : Font) (a : Nat) (b : Byte) (m : Memory) : Memory :=
  if b = Memory.unlisted f a then m else (a, b) :: m

/-- Write `b` at `a`, keeping the canonical form. The address is not checked here (00_scope R9). -/
def Memory.write (f : Font) : Memory → Nat → Byte → Memory
  | [], a, b => Memory.consCell f a b []
  | (c, d) :: m, a, b =>
    if a < c then Memory.consCell f a b ((c, d) :: m)
    else if a = c then Memory.consCell f a b m
    else (c, d) :: Memory.write f m a b

/-- Write the bytes of a list at ascending addresses from `a` (00_scope R9, 20_memory R65). -/
def Memory.writeBytes (f : Font) : Memory → Nat → List Byte → Memory
  | m, _, [] => m
  | m, a, b :: bs => Memory.writeBytes f (m.write f a b) (a + 1) bs

/-- The canonical form above `lo`: addresses rise strictly from `lo` on and no entry is what an unlisted address
reads as. -/
def Memory.wfFrom (f : Font) : Nat → Memory → Bool
  | _, [] => true
  | lo, (a, b) :: m => decide (lo ≤ a) && decide (b ≠ Memory.unlisted f a) && Memory.wfFrom f (a + 1) m

/-- The canonical form of memory. -/
def Memory.wf (f : Font) (m : Memory) : Bool := Memory.wfFrom f 0 m

/-- Every listed address is one of 0x000 to 0xFFF (R60). -/
def Memory.inSpace (m : Memory) : Bool := m.all fun c => decide (c.1 < Config.memSize)

/-- `CheckRange(base, count)` as a test, on unbounded naturals (R61). -/
def checkRange (base : Word) (count : Nat) : Bool :=
  count = 0 ∨ base.toNat + count - 1 ≤ 4095

/-- `MEM[a]`: the byte a load, a fetch or a draw reads at `a` (R31, R67). -/
def State.byte (s : State) (a : Nat) : Byte := s.mem.read s.font a

/-- `MemRead(a, n)`: the `n` bytes from `a`, lowest address first (00_scope R9). -/
def State.bytes (s : State) (a n : Nat) : List Byte := (List.range n).map fun k => s.byte (a + k)

/-- The instruction word at address `a`, high byte first (R62). -/
def State.word (s : State) (a : Nat) : Word := wordOf (s.byte a) (s.byte (a + 1))

/-- `MemWrite`: the bytes of a list to ascending addresses from `a` (00_scope R9). -/
def State.store (s : State) (a : Nat) (bs : List Byte) : State :=
  { s with mem := s.mem.writeBytes s.font a bs }

/-! ## General registers (10_state R20 to R23) -/

/-- `V[x]`. -/
def State.reg (s : State) (x : RegIdx) : Byte := s.v[x.toNat]'x.isLt

/-- `V[x] <- b`. -/
def State.setReg (s : State) (x : RegIdx) (b : Byte) : State :=
  { s with v := s.v.set x.toNat b x.isLt }

/-- `V[15] <- 1` or `0`: the flag, written last (42_load_alu R161). -/
def State.setFlag (s : State) (c : Bool) : State :=
  s.setReg Config.flagReg (if c then 1 else 0)

/-- `V[0..x]` in register order (register-dump, R184). -/
def State.regsUpTo (s : State) (x : RegIdx) : List Byte := s.v.toList.take (x.toNat + 1)

/-- Register `k` after `V[0..x]` were loaded from `base` upwards (register-load, R185): the byte at `base + k`
for `k ≤ x`, else the old value. The order of the byte reads does not matter, since nothing is written to
memory (R185). -/
def State.loadedReg (s : State) (x : RegIdx) (base : Nat) (k : RegIdx) : Byte :=
  if k.toNat ≤ x.toNat then s.byte (base + k.toNat) else s.reg k

/-- Load `V[0..x]` from memory at `base`, ascending (R185). -/
def State.loadRegs (s : State) (x : RegIdx) (base : Nat) : State :=
  { s with v := #v[s.loadedReg x base 0, s.loadedReg x base 1, s.loadedReg x base 2, s.loadedReg x base 3,
      s.loadedReg x base 4, s.loadedReg x base 5, s.loadedReg x base 6, s.loadedReg x base 7,
      s.loadedReg x base 8, s.loadedReg x base 9, s.loadedReg x base 10, s.loadedReg x base 11,
      s.loadedReg x base 12, s.loadedReg x base 13, s.loadedReg x base 14, s.loadedReg x base 15] }

/-! ## Program counter (10_state R25, 40_step_cycle R130) -/

/-- Policy `next`: `PC <- (pc0 + 2) mod 65536`. -/
def State.advance (s : State) : State := { s with pc := s.pc + 2 }

/-- Policy `skip/next`: `pc0 + 4` when the condition holds, else `pc0 + 2`. -/
def State.skipIf (s : State) (c : Bool) : State := { s with pc := if c then s.pc + 4 else s.pc + 2 }

/-- Policy `set`: `PC <- target`, unmasked (41_control_flow R144). -/
def State.jumpTo (s : State) (target : Word) : State := { s with pc := target }

/-! ## Faults (00_scope R10, 60_exceptions R250, R260) -/

/-- The numeric code of `FAULT.cause` (R250). -/
def FaultCause.code : FaultCause → BitVec 3
  | .noFault => 0
  | .stackOverflow => 1
  | .stackUnderflow => 2
  | .fetchBounds => 3
  | .misalignedFetch => 4
  | .dataBounds => 5
  | .keyIndexRange => 6

/-- Taking a fault: `FAULT.cause`, `FAULT.pc <- pc0`, `FAULT.info`, and nothing else; `PC` keeps `pc0` and control
goes nowhere (R10, R260). All checks of a rule precede all its writes, so `s` is the state in which the
instruction began and `s.pc` is `pc0`. There is no return from a fault (R261): the one way out is RESET,
`launch` in Machine/HostPort.lean. -/
def State.raise (s : State) (c : FaultCause) (info : Word) : State :=
  { s with fault := ⟨c, s.pc, info⟩ }

/-- The engine is halted by a fault (R131). -/
def State.halted (s : State) : Bool := decide (s.fault.cause ≠ .noFault)

/-- An access to the span `I .. I + count - 1`: `done` when the span is inside memory, else `DataBounds(I)`
with nothing done (R61, R255). -/
def State.access (s : State) (count : Nat) (done : State) : State :=
  if checkRange s.index count then done else s.raise .dataBounds s.index

/-! ## Call stack (10_state R28, R29) -/

/-- Push: `STACK[SP] <- a; SP <- SP + 1`; none when 16 entries are in use. -/
def State.push (s : State) (a : Word) : Option State :=
  if h : s.sp.val < 16 then
    some { s with stack := s.stack.set s.sp.val a h, sp := ⟨s.sp.val + 1, by omega⟩ }
  else none

/-- Pop: `SP <- SP - 1`, then `STACK[SP]`; none when the stack is empty. The entry keeps its value. -/
def State.pop (s : State) : Option (Word × State) :=
  if h : s.sp.val = 0 then none
  else some (s.stack[s.sp.val - 1]'(by omega), { s with sp := ⟨s.sp.val - 1, by omega⟩ })

/-! ## Framebuffer (10_state R33, 44_display R201) -/

/-- `FB[y][x]`. -/
def Frame.get (f : Frame) (y : Fin 32) (x : Fin 64) : Bool := (f[y.val]'y.isLt)[x.val]'x.isLt

/-- `FB[y][x] <- FB[y][x] ^ 1`. -/
def Frame.flip (f : Frame) (y : Fin 32) (x : Fin 64) : Frame :=
  f.set y.val ((f[y.val]'y.isLt).set x.val (!f.get y x) x.isLt) y.isLt

/-- The blank framebuffer. -/
def Frame.blank : Frame := Vector.replicate 32 (Vector.replicate 64 false)

/-- `FB[y][x]` of a state, the framebuffer read port (10_state R41). -/
def State.pixel (s : State) (y : Fin 32) (x : Fin 64) : Bool := Frame.get s.fb y x

/-! ## Timers (40_step_cycle R121) -/

/-- One decrement, floored at zero. -/
def countDown (t : Byte) : Byte := if t = 0 then 0 else t - 1

/-- `TimerService(TICK)`: with `TICK = 1` both timers count down and `AUDIO` takes "sound timer nonzero after
decrement"; with `TICK = 0` nothing changes. -/
def State.timerService (s : State) : State :=
  { s with
    dt := if s.tick then countDown s.dt else s.dt
    st := if s.tick then countDown s.st else s.st
    audio := if s.tick then decide (countDown s.st ≠ 0) else s.audio }

/-! ## Report (10_state R46) -/

/-- Every step begins by clearing all four fields. -/
def State.clearReport (s : State) : State := { s with report := ⟨false, 0, 0, false⟩ }

/-! ## Fetch (40_step_cycle R122) -/

/-- `Fetch(pc0)`: the word, or the fault's cause and info; bounds before alignment (60_exceptions R259). -/
def State.fetch (s : State) : Except (FaultCause × Word) Word :=
  if checkRange s.pc 2 = false then .error (.fetchBounds, s.pc)
  else if s.pc.toNat % 2 = 1 then .error (.misalignedFetch, s.pc)
  else .ok (s.word s.pc.toNat)

/-! ## Keys (45_keys_timers R226) -/

/-- `Pressed(v) = (KEYS[KEYMAP[v]] = 1)`. -/
def State.pressed (s : State) (k : KeyIdx) : Bool :=
  s.keys[(s.keymap[k.toNat]'k.isLt).toNat]'(s.keymap[k.toNat]'k.isLt).isLt

/-- The sixteen virtual keys in ascending order (R222). -/
def allKeys : List KeyIdx := [0, 1, 2, 3, 4, 5, 6, 7, 8, 9, 10, 11, 12, 13, 14, 15]

/-- The lowest virtual key that is pressed, if any (R222, decision D14). -/
def State.firstPressed (s : State) : Option KeyIdx := allKeys.find? fun k => s.pressed k

/-! ## The host's turn (10_state R39 to R46, 20_memory R76; DESIGN CHOICE, safe, log entry 4) -/

/-- `DIRTY_CLEAR`: `DIRTY <- 0` and nothing else (R42). -/
def State.dirtyClear (s : State) : State := { s with dirty := false }

/-- The host's turn takes effect: `KEYS`, `TICK` and `RND` are sampled, and `DIRTY_CLEAR` is applied when
asserted. -/
def State.accept (s : State) (h : HostTurn) : State :=
  { s with keys := h.keys, tick := h.tick, rnd := h.rnd, dirty := s.dirty && !h.dirtyClear }

/-- The free host turn number `n`: nothing constrains it. -/
def freeTurn (n : Nat) : HostTurn :=
  ⟨Config.freeKeys n, Config.freeTick n, Config.freeRnd n, Config.freeDirtyClear n⟩

/-- Take the next host turn: the first of the script, or a free one when the script is empty. -/
def State.hostTurn (s : State) : State :=
  match s.script with
  | [] => { s with draws := s.draws + 1 }.accept (freeTurn s.draws)
  | h :: rest => { s with script := rest }.accept h

/-! ## Placing a word where the next step fetches -/

/-- `s` with the word `w` stored, high byte first (R62), at the address the next step fetches from, when that
address is a fetchable one (DESIGN CHOICE, safe, log entry 7). -/
def State.placeWord (s : State) (w : Word) : State :=
  { s with mem := if checkRange s.pc 2 then (s.store s.pc.toNat (bytesOf w)).mem else s.mem }

end Sys2Proof.Machine
end

