-- ==== Sys2Proof/Machine/Operands.lean ====
section
/-! DEFINITION. Operand forms: zero extension of immediates, the one addressing mode (43_index_memory R186),
decimal digits, sprite coordinates and sprite pixels. -/

namespace Sys2Proof.Machine

/-- `zext_16(NNN)` (30_encoding R95). -/
def zextAddr (nnn : Addr) : Word := nnn.setWidth 16

/-- `zext_16` of a byte (30_encoding R95). -/
def zextByte (b : Byte) : Word := b.setWidth 16

/-- The effective address `I + k` on unbounded naturals (R186). -/
def State.effAddr (s : State) (k : Nat) : Nat := s.index.toNat + k

/-- The three decimal digits, hundreds first (R183). -/
def bcdDigits (b : Byte) : List Byte :=
  [BitVec.ofNat 8 (b.toNat / 100), BitVec.ofNat 8 (b.toNat / 10 % 10), BitVec.ofNat 8 (b.toNat % 10)]

/-- A register value used as a key index: its low four bits, read only when the value is at most 15
(45_keys_timers R227). -/
def keyOf (b : Byte) : KeyIdx := b.setWidth 4

/-- The screen row of sprite row `r` when the sprite starts at row `V[Y] mod 32` (R201, R202). -/
def spriteRow (vy : Byte) (r : Nat) : Fin 32 := ⟨(vy.toNat % 32 + r) % 32, by omega⟩

/-- The screen column of sprite column `c` when the sprite starts at column `V[X] mod 64` (R201, R202). -/
def spriteCol (vx : Byte) (c : Nat) : Fin 64 := ⟨(vx.toNat % 64 + c) % 64, by omega⟩

/-- Column `c` of a sprite byte is its bit `7 - c`: bit 7 is leftmost (R203; PRESUMED, unsafe, log entry 9). -/
def spriteBit (b : Byte) (c : Nat) : Bool := b.getLsbD (7 - c)

/-- The pixels one sprite row sets: the columns whose source bit is 1, from the left (R201). -/
def rowPixels (b : Byte) (vx : Byte) (y : Fin 32) : List (Fin 32 × Fin 64) :=
  (List.range 8).filterMap fun c => if spriteBit b c then some (y, spriteCol vx c) else none

/-- The pixels addressed by set source bits, row by row from the top, in the order in which the draw reaches
them (R201): sprite row `r` is the byte at `I + r`. -/
def State.spritePixels (s : State) (x y : RegIdx) (n : Nat) : List (Fin 32 × Fin 64) :=
  (List.range n).flatMap fun r =>
    rowPixels (s.byte (s.effAddr r)) (s.reg x) (spriteRow (s.reg y) r)

/-- A draw in progress: the framebuffer, and the pseudocode's `collision` and `toggled` (R201). -/
structure Drawing where
  frame : Frame
  collision : Bool
  toggled : Bool
deriving DecidableEq, Repr

/-- One set source bit reaches its pixel (R201): a set pixel is a collision, and the pixel is toggled. -/
def Drawing.plot (d : Drawing) (p : Fin 32 × Fin 64) : Drawing :=
  ⟨Frame.flip d.frame p.1 p.2, d.collision || Frame.get d.frame p.1 p.2, true⟩

/-- The whole draw over a list of pixels. -/
def drawPixels (f : Frame) (ps : List (Fin 32 × Fin 64)) : Drawing :=
  ps.foldl Drawing.plot ⟨f, false, false⟩

end Sys2Proof.Machine
end

