-- ==== Sys2Proof/Machine/ControlFlow.lean ====
section
/-! DEFINITION. Control flow (spec 41_control_flow): return, jump, call, jump-with-offset and the register
skips. No target is masked, aligned or checked; a bad one faults at the next fetch (R144). -/

namespace Sys2Proof.Machine

/-- R140 return. -/
def execRet (s : State) : Result :=
  match s.pop with
  | none => .next (s.raise .stackUnderflow 0)
  | some (a, t) => .next (t.jumpTo a)

/-- R141 jump. -/
def execJpNnn (nnn : Addr) (s : State) : Result := .next (s.jumpTo (zextAddr nnn))

/-- R142 call: the pushed value is `pc0 + 2` (90_conflicts C1). -/
def execCallNnn (nnn : Addr) (s : State) : Result :=
  match s.push (s.pc + 2) with
  | none => .next (s.raise .stackOverflow (zextAddr nnn))
  | some t => .next (t.jumpTo (zextAddr nnn))

/-- R143 jump-with-offset: the register added is always `V[0]`, and the sum is not masked. -/
def execJpV0Nnn (nnn : Addr) (s : State) : Result :=
  .next (s.jumpTo (zextAddr nnn + zextByte (s.reg 0)))

/-- R146 skip-if-equal-immediate. -/
def execSeVxNn (x : RegIdx) (nn : Byte) (s : State) : Result :=
  .next (s.skipIf (decide (s.reg x = nn)))

/-- R147 skip-if-not-equal-immediate. -/
def execSneVxNn (x : RegIdx) (nn : Byte) (s : State) : Result :=
  .next (s.skipIf (decide (s.reg x ≠ nn)))

/-- R148 skip-if-registers-equal. -/
def execSeVxVy (x y : RegIdx) (s : State) : Result :=
  .next (s.skipIf (decide (s.reg x = s.reg y)))

/-- R149 skip-if-registers-not-equal. -/
def execSneVxVy (x y : RegIdx) (s : State) : Result :=
  .next (s.skipIf (decide (s.reg x ≠ s.reg y)))

end Sys2Proof.Machine
end

