-- ==== Sys2Proof/Machine/Display.lean ====
section
/-! DEFINITION. The framebuffer instructions (spec 44_display): clear-screen and draw-sprite. -/

namespace Sys2Proof.Machine

/-- R200 clear-screen: `DIRTY` is set by every execution (90_conflicts C8). -/
def execCls (s : State) : Result := .next { s with fb := Frame.blank, dirty := true }.advance

/-- The state after the draw of R201, before the program counter moves: the coordinates are the registers' values
before `VF` is written, `VF` is written always, `DIRTY` only gains. -/
def State.afterDraw (s : State) (x y : RegIdx) (n : Nibble) : State :=
  let d := drawPixels s.fb (s.spritePixels x y n.toNat)
  { s.setFlag d.collision with fb := d.frame, dirty := s.dirty || d.toggled }

/-- R201 draw-sprite. -/
def execDrwVxVyN (x y : RegIdx) (n : Nibble) (s : State) : Result :=
  .next (s.access n.toNat (s.afterDraw x y n).advance)

end Sys2Proof.Machine
end

