-- ==== Sys2Proof/Machine/IndexMemory.lean ====
section
/-! DEFINITION. The index register and the memory instructions (spec 43_index_memory). The whole span is checked
before the first access, and no load or store changes `I` (R186). -/

namespace Sys2Proof.Machine

/-- R180 set-index. -/
def execLdINnn (nnn : Addr) (s : State) : Result :=
  .next { s with index := zextAddr nnn }.advance

/-- R181 add-to-index: modulo 65536, no flag. -/
def execAddIVx (x : RegIdx) (s : State) : Result :=
  .next { s with index := s.index + zextByte (s.reg x) }.advance

/-- R182 sprite-address: the whole 8-bit value times 5. -/
def execLdFVx (x : RegIdx) (s : State) : Result :=
  .next { s with index := BitVec.ofNat 16 ((s.reg x).toNat * Config.glyphStride) }.advance

/-- R183 store-bcd. -/
def execLdBVx (x : RegIdx) (s : State) : Result :=
  .next (s.access 3 (s.store (s.effAddr 0) (bcdDigits (s.reg x))).advance)

/-- R184 register-dump: `V[0..X]`, ascending; `I` is unchanged. -/
def execLdImemVx (x : RegIdx) (s : State) : Result :=
  .next (s.access (x.toNat + 1) (s.store (s.effAddr 0) (s.regsUpTo x)).advance)

/-- R185 register-load: `V[0..X]`, ascending; `I` is unchanged. -/
def execLdVxImem (x : RegIdx) (s : State) : Result :=
  .next (s.access (x.toNat + 1) (s.loadRegs x (s.effAddr 0)).advance)

end Sys2Proof.Machine
end

