-- ==== Sys2Proof/Machine/KeysTimers.lean ====
section
/-! DEFINITION. The key and timer instructions (spec 45_keys_timers). -/

namespace Sys2Proof.Machine

/-- The shared form of the two key skips (R220, R221, R227): `KeyIndexRange(V[X])` above 15, else a skip when the
key's state is `want`. -/
def State.keySkip (s : State) (x : RegIdx) (want : Bool) : State :=
  if (s.reg x).toNat > 15 then s.raise .keyIndexRange (zextByte (s.reg x))
  else s.skipIf (s.pressed (keyOf (s.reg x)) == want)

/-- R220 skip-if-key-pressed. -/
def execSkpVx (x : RegIdx) (s : State) : Result := .next (s.keySkip x true)

/-- R221 skip-if-key-not-pressed. -/
def execSknpVx (x : RegIdx) (s : State) : Result := .next (s.keySkip x false)

/-- Await-key with no key pressed (R222): hold, `PC` stays `pc0`, the report says so. -/
def State.holdForKey (s : State) : State := { s with report := { s.report with keywait := true } }

/-- R222 await-key: the lowest pressed virtual key, or hold. -/
def execLdVxK (x : RegIdx) (s : State) : Result :=
  .next (match s.firstPressed with
    | none => s.holdForKey
    | some k => (s.setReg x (k.setWidth 8)).advance)

/-- R223 load-delay-timer: `DT` after this step's timer service. -/
def execLdVxDt (x : RegIdx) (s : State) : Result := .next (s.setReg x s.dt).advance

/-- R224 set-delay-timer. -/
def execLdDtVx (x : RegIdx) (s : State) : Result := .next { s with dt := s.reg x }.advance

/-- R225 set-sound-timer: `AUDIO` is not written. -/
def execLdStVx (x : RegIdx) (s : State) : Result := .next { s with st := s.reg x }.advance

end Sys2Proof.Machine
end

