-- ==== Sys2Proof/Machine/Flags.lean ====
section
/-! DEFINITION. The flag computations (10_state R23): each from the operands as they were when the instruction
began (42_load_alu R161). -/

namespace Sys2Proof.Machine

/-- add-with-carry: the nine-bit sum exceeds 255 (R168). -/
def carryOut (a b : Byte) : Bool := decide (a.toNat + b.toNat > 255)

/-- The two subtractions: no borrow, the minuend is at least the subtrahend (R169, R171). -/
def noBorrow (minuend subtrahend : Byte) : Bool := decide (minuend.toNat ≥ subtrahend.toNat)

/-- shift-right: bit 0 before the shift (R170). -/
def lowBit (a : Byte) : Bool := a.getLsbD 0

/-- shift-left: bit 7 before the shift (R172). -/
def highBit (a : Byte) : Bool := a.getLsbD 7

/-- The law of R161: the result to `V[x]`, then the flag to `V[15]`. -/
def State.setResultAndFlag (s : State) (x : RegIdx) (result : Byte) (flag : Bool) : State :=
  (s.setReg x result).setFlag flag

end Sys2Proof.Machine
end

