-- ==== Sys2Proof/Machine/LoadAlu.lean ====
section
/-! DEFINITION. Register loads, arithmetic, logic, shifts and random (spec 42_load_alu). Every value is unsigned
and every sum or difference is taken modulo 256 (R160). -/

namespace Sys2Proof.Machine

/-- R162 load-immediate. -/
def execLdVxNn (x : RegIdx) (nn : Byte) (s : State) : Result := .next (s.setReg x nn).advance

/-- R163 add-immediate: no flag. -/
def execAddVxNn (x : RegIdx) (nn : Byte) (s : State) : Result :=
  .next (s.setReg x (s.reg x + nn)).advance

/-- R164 assign. -/
def execLdVxVy (x y : RegIdx) (s : State) : Result := .next (s.setReg x (s.reg y)).advance

/-- R165 bitwise-or: `VF` is not written. -/
def execOrVxVy (x y : RegIdx) (s : State) : Result :=
  .next (s.setReg x (s.reg x ||| s.reg y)).advance

/-- R166 bitwise-and: `VF` is not written. -/
def execAndVxVy (x y : RegIdx) (s : State) : Result :=
  .next (s.setReg x (s.reg x &&& s.reg y)).advance

/-- R167 bitwise-xor: `VF` is not written. -/
def execXorVxVy (x y : RegIdx) (s : State) : Result :=
  .next (s.setReg x (s.reg x ^^^ s.reg y)).advance

/-- R168 add-with-carry. -/
def execAddVxVy (x y : RegIdx) (s : State) : Result :=
  .next (s.setResultAndFlag x (s.reg x + s.reg y) (carryOut (s.reg x) (s.reg y))).advance

/-- R169 sub-with-borrow. -/
def execSubVxVy (x y : RegIdx) (s : State) : Result :=
  .next (s.setResultAndFlag x (s.reg x - s.reg y) (noBorrow (s.reg x) (s.reg y))).advance

/-- R170 shift-right, of `V[X]` in place; `V[Y]` is not read. -/
def execShrVx (x : RegIdx) (s : State) : Result :=
  .next (s.setResultAndFlag x (s.reg x >>> 1) (lowBit (s.reg x))).advance

/-- R171 reverse-sub-with-borrow. -/
def execSubnVxVy (x y : RegIdx) (s : State) : Result :=
  .next (s.setResultAndFlag x (s.reg y - s.reg x) (noBorrow (s.reg y) (s.reg x))).advance

/-- R172 shift-left, of `V[X]` in place; `V[Y]` is not read. -/
def execShlVx (x : RegIdx) (s : State) : Result :=
  .next (s.setResultAndFlag x (s.reg x <<< 1) (highBit (s.reg x))).advance

/-- R173 random-and, of the byte sampled for this step. -/
def execRndVxNn (x : RegIdx) (nn : Byte) (s : State) : Result :=
  .next (s.setReg x (s.rnd &&& nn)).advance

end Sys2Proof.Machine
end

