-- ==== Sys2Proof/Machine/Unrecognized.lean ====
section
/-! DEFINITION. The fallback for unrecognized words (spec 46_unrecognized). -/

namespace Sys2Proof.Machine

/-- R240 unrecognized: reported with `pc0` and the word, then `PC + 2`; no fault. -/
def execUnknown (w : Word) (s : State) : Result :=
  .next { s with report := { s.report with unknownValid := true, unknownPc := s.pc, unknownWord := w } }.advance

end Sys2Proof.Machine
end

