-- ==== Sys2Proof/Machine/Cycle.lean ====
section
/-! DEFINITION. The engine's `STEP` (40_step_cycle R120): timer service, fetch, decode, execute. -/

namespace Sys2Proof.Machine

/-- What stands before the fetch in a step of a running engine (R120): the report is cleared and the timers are
served. -/
def State.beginStep (s : State) : State := s.clearReport.timerService

/-- Fetch, decode and execute in the state `s` (R120, parts 2 to 5); a fetch fault is entered instead (R122). -/
def fetchAndExec (s : State) : Result :=
  match s.fetch with
  | .error (c, info) => .next (s.raise c info)
  | .ok w => exec (decode w) s

/-- `STEP` once its inputs are sampled (R120): a halted engine does nothing at all (R131). -/
def engineStep (s : State) : Result :=
  if s.halted then .next s else fetchAndExec s.beginStep

end Sys2Proof.Machine
end

