-- ==== Sys2Proof/Machine/Step.lean ====
section
/-! DEFINITION. The model's step: the host's turn takes effect (inputs sampled, `DIRTY_CLEAR` applied, 20_memory
R76), then the engine's `STEP` runs (40_step_cycle R120). -/

namespace Sys2Proof.Machine

/-- One step. -/
def step (s : State) : Host.Outcome State Fault Refusal := engineStep s.hostTurn

/-- `s` with the instruction whose bits are `w` (numbered as spec/opcode_table.json numbers them, the bits above
`nbits` zero) stored where the next step fetches. Nothing else changes: a running engine fetches at `PC`. -/
def State.withFetchWord (s : State) (nbits w : Nat) : State :=
  s.placeWord (BitVec.ofNat 16 (w % 2 ^ nbits))

end Sys2Proof.Machine
end

