-- ==== Sys2Proof/Machine/HostPort.lean ====
section
/-! DEFINITION. What the host can do to the engine (10_state R39 to R46, 60_exceptions R267, 70_reset R290 to R292,
R297): `STEP`, `DIRTY_CLEAR`, `RESET`, and saying what it will present to the coming steps. Everything else the
host does is reading. -/

namespace Sys2Proof.Machine

/-- The precondition of `RESET` on the image (70_reset R291); `FONT` and `KEYMAP` meet theirs by their types. -/
def launchOk (image : List Byte) : Bool := decide (image.length ≤ Config.imageMax)

/-- `RESET(IMAGE, FONT, KEYMAP)` (R290): every piece of state takes its reset value, whatever it held before, the
halted state included (R292); `MEM` is `FONT`, zeros, and `IMAGE` copied in at 0x200. The model's own fields,
which say what the host will present next, are the host's and stay. -/
def launch (image : List Byte) (font : Font) (keymap : Vector KeyIdx 16) (s : State) : State :=
  { State.reset with
    font := font
    mem := Memory.writeBytes font [] Config.base image
    keymap := keymap
    script := s.script
    draws := s.draws }

/-- What the host can do between steps, and the step itself. -/
inductive HostAction where
  /-- Invoke `STEP` (R39). -/
  | step
  /-- Assert `DIRTY_CLEAR` (R42). -/
  | dirtyClear
  /-- Apply `RESET` (R290). -/
  | reset (image : List Byte) (font : Font) (keymap : Vector KeyIdx 16)
  /-- Fix what the coming steps will be presented with (R40, R44, R45): model's own, log entry 4. -/
  | schedule (turns : List HostTurn)
deriving DecidableEq, Repr

/-- One action of the host. A reset that breaks a precondition is no launch the spec describes (R291) and is
refused by name. -/
def perform (a : HostAction) (s : State) : Result :=
  match a with
  | .step => Sys2Proof.Machine.step s
  | .dirtyClear => .next s.dirtyClear
  | .reset image font keymap =>
    if launchOk image then .next (launch image font keymap s) else .refused .notALaunch
  | .schedule turns => .next { s with script := turns }

end Sys2Proof.Machine
end

