-- ==== Sys2Proof/Safety.lean ====
section
/-! DEFINITION. What counts as a safe run, in the terms the claims use: frames, the tables of the spec that say
who may write what, and the invariants of the machine. -/

namespace Sys2Proof.Safety

open Sys2Proof.Machine

/-! ## Frames: what is as it was -/

/-- Every general register outside `xs` is as it was. -/
def SameRegsExcept (xs : List RegIdx) (s t : State) : Prop := ∀ r : RegIdx, r ∉ xs → t.reg r = s.reg r

/-- Every byte of memory reads as it did. -/
def SameBytes (s t : State) : Prop := ∀ a : Nat, t.byte a = s.byte a

/-- Every byte of memory outside the `count` bytes from `base` reads as it did. -/
def SameBytesOutside (base count : Nat) (s t : State) : Prop :=
  ∀ a : Nat, a < base ∨ base + count ≤ a → t.byte a = s.byte a

/-- The call stack is as it was. -/
def SameStack (s t : State) : Prop := t.sp = s.sp ∧ t.stack = s.stack

/-- Every pixel is as it was. -/
def SamePixels (s t : State) : Prop := ∀ (y : Fin 32) (x : Fin 64), t.pixel y x = s.pixel y x

/-- The timers and the audio-active flag are as they were. -/
def SameTimers (s t : State) : Prop := t.dt = s.dt ∧ t.st = s.st ∧ t.audio = s.audio

/-- The sampled inputs, the font and key mapping of the launch and the model's own fields are as they were. -/
def SameHostSide (s t : State) : Prop :=
  t.font = s.font ∧ t.keymap = s.keymap ∧ t.keys = s.keys ∧ t.tick = s.tick ∧ t.rnd = s.rnd ∧ t.script = s.script ∧
    t.draws = s.draws

/-- The call stack, the screen, the timers, `FAULT`, `REPORT` and the host's side are as they were. -/
def SameRest (s t : State) : Prop :=
  SameStack s t ∧ SamePixels s t ∧ t.dirty = s.dirty ∧ SameTimers s t ∧ t.fault = s.fault ∧
    t.report = s.report ∧ SameHostSide s t

/-- Only the general registers in `xs` and `PC` may differ. -/
def OnlyRegs (xs : List RegIdx) (s t : State) : Prop :=
  SameRegsExcept xs s t ∧ t.index = s.index ∧ SameBytes s t ∧ SameRest s t

/-- Only `I` and `PC` may differ. -/
def OnlyIndex (s t : State) : Prop := SameRegsExcept [] s t ∧ SameBytes s t ∧ SameRest s t

/-- Only the `count` bytes of memory from `base` and `PC` may differ. -/
def OnlyStore (base count : Nat) (s t : State) : Prop :=
  SameRegsExcept [] s t ∧ t.index = s.index ∧ SameBytesOutside base count s t ∧ SameRest s t

/-- Only `SP`, `STACK` and `PC` may differ. -/
def OnlyStack (s t : State) : Prop :=
  SameRegsExcept [] s t ∧ t.index = s.index ∧ SameBytes s t ∧ SamePixels s t ∧ t.dirty = s.dirty ∧
    SameTimers s t ∧ t.fault = s.fault ∧ t.report = s.report ∧ SameHostSide s t

/-- Only the framebuffer, `DIRTY`, the general registers in `xs` and `PC` may differ. -/
def OnlyScreen (xs : List RegIdx) (s t : State) : Prop :=
  SameRegsExcept xs s t ∧ t.index = s.index ∧ SameBytes s t ∧ SameStack s t ∧ SameTimers s t ∧
    t.fault = s.fault ∧ t.report = s.report ∧ SameHostSide s t

/-- Only `DT`, `ST` and `PC` may differ. -/
def OnlyTimers (s t : State) : Prop :=
  SameRegsExcept [] s t ∧ t.index = s.index ∧ SameBytes s t ∧ SameStack s t ∧ SamePixels s t ∧
    t.dirty = s.dirty ∧ t.audio = s.audio ∧ t.fault = s.fault ∧ t.report = s.report ∧ SameHostSide s t

/-- Only `REPORT` and `PC` may differ. -/
def OnlyReport (s t : State) : Prop :=
  SameRegsExcept [] s t ∧ t.index = s.index ∧ SameBytes s t ∧ SameStack s t ∧ SamePixels s t ∧
    t.dirty = s.dirty ∧ SameTimers s t ∧ t.fault = s.fault ∧ SameHostSide s t

/-- `PC` is as the policy `next` leaves it (10_state R25). -/
def PcNext (s t : State) : Prop := t.pc = s.pc + 2

/-- The instruction completes, `V[x]` then satisfies `p`, and nothing but `V[x]` and `PC` (policy `next`) has
changed. -/
def WritesReg (i : Instr) (s : State) (x : RegIdx) (p : Byte → Prop) : Prop :=
  ∃ t, exec i s = .next t ∧ p (t.reg x) ∧ PcNext s t ∧ OnlyRegs [x] s t

/-- The instruction completes; `VF` ends as exactly 1 or 0, 1 when `flag` holds; `V[x]` satisfies `p` unless
`x = 15`, where the flag is written last; and nothing but `V[x]`, `VF` and `PC` (policy `next`) has changed
(42_load_alu R161). -/
def WritesRegAndFlag (i : Instr) (s : State) (x : RegIdx) (p : Byte → Prop) (flag : Prop) : Prop :=
  ∃ t, exec i s = .next t ∧ (x ≠ 15 → p (t.reg x)) ∧ (t.reg 15 = 1 ∨ t.reg 15 = 0) ∧ (t.reg 15 = 1 ↔ flag) ∧
    PcNext s t ∧ OnlyRegs [x, 15] s t

/-- The instruction ends with the engine halted by the fault, and nothing but `FAULT` has changed
(60_exceptions R260). -/
def TakesFault (i : Instr) (s : State) (c : FaultCause) (info : Word) : Prop :=
  exec i s = .next { s with fault := ⟨c, s.pc, info⟩ }

/-! ## Fetching -/

/-- An address an instruction is fetched from: even and at most 0x0FFE (40_step_cycle R122). -/
abbrev Fetchable (pc : Word) : Prop := pc.toNat ≤ 0x0FFE ∧ pc.toNat % 2 = 0

/-- The engine is running and its next step fetches the instruction `i`. -/
abbrev AtInstr (s : State) (i : Instr) : Prop :=
  s.fault.cause = .noFault ∧ Fetchable s.pc ∧ decode (s.word s.pc.toNat) = i

/-- The recommended definition of "the program has ended" (70_reset R305): not faulted, and the word at `PC` is a
jump whose target is `PC`. R305 does not say whether `PC` must be fetchable; here it must be (even and at most 0x0FFE,
through `AtInstr`), so a self-jump at an odd address, whose next step faults, is not ended: DESIGN CHOICE, safe (log
entry 12). -/
abbrev Ended (s : State) : Prop := ∃ nnn : Addr, AtInstr s (.jpNnn nnn) ∧ zextAddr nnn = s.pc

/-! ## Tables of the spec -/

/-- The registers an instruction writes as its destination (10_state R21; not the flag). -/
def Instr.destRegs : Instr → List RegIdx
  | .ldVxNn x _ | .addVxNn x _ | .ldVxVy x _ | .orVxVy x _ | .andVxVy x _ | .xorVxVy x _ | .addVxVy x _
  | .subVxVy x _ | .shrVx x _ | .subnVxVy x _ | .shlVx x _ | .rndVxNn x _ | .ldVxK x | .ldVxDt x => [x]
  | .ldVxImem x => (List.range (x.toNat + 1)).map (BitVec.ofNat 4)
  | .cls | .ret | .jpNnn _ | .callNnn _ | .seVxNn _ _ | .sneVxNn _ _ | .seVxVy _ _ | .sneVxVy _ _ | .ldINnn _
  | .jpV0Nnn _ | .drwVxVyN _ _ _ | .skpVx _ | .sknpVx _ | .ldDtVx _ | .ldStVx _ | .addIVx _ | .ldFVx _
  | .ldBVx _ | .ldImemVx _ | .unknown _ => []

/-- The six instructions that write `VF` as the flag (10_state R23). -/
def Instr.writesFlag : Instr → Bool
  | .addVxVy _ _ | .subVxVy _ _ | .shrVx _ _ | .subnVxVy _ _ | .shlVx _ _ | .drwVxVyN _ _ _ => true
  | .cls | .ret | .jpNnn _ | .callNnn _ | .seVxNn _ _ | .sneVxNn _ _ | .seVxVy _ _ | .ldVxNn _ _ | .addVxNn _ _
  | .ldVxVy _ _ | .orVxVy _ _ | .andVxVy _ _ | .xorVxVy _ _ | .sneVxVy _ _ | .ldINnn _ | .jpV0Nnn _
  | .rndVxNn _ _ | .skpVx _ | .sknpVx _ | .ldVxDt _ | .ldVxK _ | .ldDtVx _ | .ldStVx _ | .addIVx _ | .ldFVx _
  | .ldBVx _ | .ldImemVx _ | .ldVxImem _ | .unknown _ => false

/-- The span of memory an instruction addresses through `I`, in bytes (60_exceptions R255). -/
def Instr.span : Instr → Nat
  | .ldBVx _ => 3
  | .ldImemVx x | .ldVxImem x => x.toNat + 1
  | .drwVxVyN _ _ n => n.toNat
  | .cls | .ret | .jpNnn _ | .callNnn _ | .seVxNn _ _ | .sneVxNn _ _ | .seVxVy _ _ | .ldVxNn _ _ | .addVxNn _ _
  | .ldVxVy _ _ | .orVxVy _ _ | .andVxVy _ _ | .xorVxVy _ _ | .addVxVy _ _ | .subVxVy _ _ | .shrVx _ _
  | .subnVxVy _ _ | .shlVx _ _ | .sneVxVy _ _ | .ldINnn _ | .jpV0Nnn _ | .rndVxNn _ _ | .skpVx _ | .sknpVx _
  | .ldVxDt _ | .ldVxK _ | .ldDtVx _ | .ldStVx _ | .addIVx _ | .ldFVx _ | .unknown _ => 0

/-- The span of an instruction is not inside 0..4095 (20_memory R61). -/
abbrev SpanOutside (i : Instr) (s : State) : Prop :=
  0 < Instr.span i ∧ 4095 < s.index.toNat + Instr.span i - 1

/-- The fault an instruction raises in a state, with its `FAULT.info`: the table of 60_exceptions R250. -/
def faultOf (i : Instr) (s : State) : Option (FaultCause × Word) :=
  match i with
  | .callNnn nnn => if s.sp = 16 then some (.stackOverflow, zextAddr nnn) else none
  | .ret => if s.sp = 0 then some (.stackUnderflow, 0) else none
  | .skpVx x | .sknpVx x =>
    if 15 < (s.reg x).toNat then some (.keyIndexRange, zextByte (s.reg x)) else none
  | .ldBVx _ | .ldImemVx _ | .ldVxImem _ | .drwVxVyN _ _ _ =>
    if SpanOutside i s then some (.dataBounds, s.index) else none
  | .cls | .jpNnn _ | .seVxNn _ _ | .sneVxNn _ _ | .seVxVy _ _ | .ldVxNn _ _ | .addVxNn _ _ | .ldVxVy _ _
  | .orVxVy _ _ | .andVxVy _ _ | .xorVxVy _ _ | .addVxVy _ _ | .subVxVy _ _ | .shrVx _ _ | .subnVxVy _ _
  | .shlVx _ _ | .sneVxVy _ _ | .ldINnn _ | .jpV0Nnn _ | .rndVxNn _ _ | .ldVxDt _ | .ldVxK _ | .ldDtVx _
  | .ldStVx _ | .addIVx _ | .ldFVx _ | .unknown _ => none

/-- The new `PC` of an instruction that does not fault: the table of 40_step_cycle R130, all sums modulo 65536.
The popped entry of a return is `STACK[SP - 1]`; an await-key goes on when some virtual key is pressed. -/
def pcAfter (i : Instr) (s : State) : Word :=
  match i with
  | .ret => s.stack.toList.getD (s.sp.val - 1) 0
  | .jpNnn nnn | .callNnn nnn => BitVec.ofNat 16 nnn.toNat
  | .jpV0Nnn nnn => BitVec.ofNat 16 (nnn.toNat + (s.reg 0).toNat)
  | .seVxNn x nn => if s.reg x = nn then s.pc + 4 else s.pc + 2
  | .sneVxNn x nn => if s.reg x = nn then s.pc + 2 else s.pc + 4
  | .seVxVy x y => if s.reg x = s.reg y then s.pc + 4 else s.pc + 2
  | .sneVxVy x y => if s.reg x = s.reg y then s.pc + 2 else s.pc + 4
  | .skpVx x => if s.pressed (BitVec.ofNat 4 (s.reg x).toNat) then s.pc + 4 else s.pc + 2
  | .sknpVx x => if s.pressed (BitVec.ofNat 4 (s.reg x).toNat) then s.pc + 2 else s.pc + 4
  | .ldVxK _ => if ∃ k : Fin 16, s.pressed (BitVec.ofFin k) = true then s.pc + 2 else s.pc
  | .cls | .ldVxNn _ _ | .addVxNn _ _ | .ldVxVy _ _ | .orVxVy _ _ | .andVxVy _ _ | .xorVxVy _ _ | .addVxVy _ _
  | .subVxVy _ _ | .shrVx _ _ | .subnVxVy _ _ | .shlVx _ _ | .ldINnn _ | .rndVxNn _ _ | .drwVxVyN _ _ _
  | .ldVxDt _ | .ldDtVx _ | .ldStVx _ | .addIVx _ | .ldFVx _ | .ldBVx _ | .ldImemVx _ | .ldVxImem _
  | .unknown _ => s.pc + 2

/-- The pixel `(y, x)` is addressed by a set source bit of a draw (44_display R201 to R203): some sprite row `r`
and column `c` land on it, and bit `7 - c` of the byte at `I + r` is 1. -/
def Addressed (s : State) (vx vy : RegIdx) (n : Nibble) (y : Fin 32) (x : Fin 64) : Prop :=
  ∃ r c : Nat, r < n.toNat ∧ c < 8 ∧ y.val = ((s.reg vy).toNat % 32 + r) % 32 ∧
    x.val = ((s.reg vx).toNat % 64 + c) % 64 ∧ (s.byte (s.index.toNat + r)).getLsbD (7 - c) = true

/-! ## Invariants -/

/-- Memory is in canonical form, inside the address space. -/
abbrev MemoryCanonical (s : State) : Prop := s.mem.wf s.font = true ∧ s.mem.inSpace = true

/-- Every entry of the call stack in use is a return address: even and in 0x0002..0x1000 (41_control_flow R140),
and `PC` is at most 0x10FE (10_state R25). -/
abbrev ControlSound (s : State) : Prop :=
  (∀ k : Fin 16, k.val < s.sp.val →
    s.stack[k].toNat % 2 = 0 ∧ 2 ≤ s.stack[k].toNat ∧ s.stack[k].toNat ≤ 0x1000) ∧
  s.pc.toNat ≤ 0x10FE

/-- While the engine is halted, `FAULT` describes the step that failed as the table of 60_exceptions R250 says:
`FAULT.pc` is `PC`, and either the fetch at `PC` failed, or the instruction at `PC` is one that raises this
cause with this info in this state. -/
def FaultSound (s : State) : Prop :=
  s.fault.cause ≠ .noFault → s.fault.pc = s.pc ∧
    (if 0x0FFE < s.pc.toNat then s.fault.cause = .fetchBounds ∧ s.fault.info = s.pc
     else if s.pc.toNat % 2 = 1 then s.fault.cause = .misalignedFetch ∧ s.fault.info = s.pc
     else faultOf (decode (s.word s.pc.toNat)) s = some (s.fault.cause, s.fault.info))

/-- The engine state a program or the host can read is as it was, but for `DIRTY`, which may have been cleared:
what a halted engine looks like from step to step (40_step_cycle R131). -/
def SameEngine (s t : State) : Prop :=
  SameRegsExcept [] s t ∧ t.index = s.index ∧ t.pc = s.pc ∧ SameStack s t ∧ SameBytes s t ∧ SamePixels s t ∧
    SameTimers s t ∧ t.fault = s.fault ∧ t.keymap = s.keymap ∧ (t.dirty = true → s.dirty = true)

end Sys2Proof.Safety
end

