-- ==== Sys2Proof/Certificates/Slice0/Obligations.lean ====
section
/-! DEFINITION. The statements for the provers. Each docstring names the rule of spec/ it formalises; where a clause
rests on one of the spec's own decisions (D<n> of 92_eei_decisions.md), on a derived sentence or on general knowledge
(GK<n>), the docstring says so. -/

open Sys2Proof Sys2Proof.Machine Sys2Proof.Safety

/-! ## Encoding -/

/-- Words written out from 30_encoding R96, one or more per family; the first four are those of the source's own
scenario (R97 a). The numbers rest on GK1, GK2 (log entry 1). -/
def Obligations.SampleWordsDecodeAsTheTableSays : Prop :=
  decode 0x600A = .ldVxNn 0x0 0x0A ∧ decode 0x6105 = .ldVxNn 0x1 0x05 ∧ decode 0x8014 = .addVxVy 0x0 0x1 ∧
  decode 0x0000 = .unknown 0x0000 ∧ decode 0x00EE = .ret ∧ decode 0x2300 = .callNnn 0x300 ∧
  decode 0xA2F0 = .ldINnn 0x2F0 ∧ decode 0xD012 = .drwVxVyN 0x0 0x1 0x2 ∧ decode 0xE29E = .skpVx 0x2 ∧
  decode 0xF30A = .ldVxK 0x3 ∧ decode 0x5121 = .unknown 0x5121

/-- Decoding the word, or the two bytes, of a well-formed instruction gives the instruction back, every operand at
every value (R91, R92, R96, R98). -/
def Obligations.DecodeOfEncodeIsTheInstruction : Prop :=
  ∀ i : Instr, i.wellFormed = true →
    decode (encode i) = i ∧ decodeBytes (bytesOf (encode i)) = .ok (i, [])

/-- Every word decodes to a well-formed instruction whose word it is: the decoder is total and drops no bit (R98). -/
def Obligations.EncodeOfDecodeIsTheWord : Prop :=
  ∀ w : Word, encode (decode w) = w ∧ (decode w).wellFormed = true

/-- The words that decode to the fallback are exactly the six sets of R100, which `unrecognized` writes out. -/
def Obligations.FallbackIsExactlyTheSixSets : Prop :=
  ∀ w : Word, (decode w = .unknown w ↔ unrecognized w = true) ∧
    ((∃ v, decode w = .unknown v) → decode w = .unknown w)

/-- No word selects two of the rows 1 to 34 (R98, R96). -/
def Obligations.OpcodeRowsAreDisjoint : Prop :=
  opcodeRows.length = 34 ∧ ∀ w : Word, (opcodeRows.filter (rowMatches w)).length ≤ 1

/-- The switch of the decoder agrees with the mask and match table: the decoded instruction's own row is selected
by the word, and the fallback is taken exactly when no row is selected (R96, R98). -/
def Obligations.DecodeFollowsTheMaskAndMatchTable : Prop :=
  ∀ w : Word, rowMatches w (maskOf (decode w), matchOf (decode w)) = true ∧
    (decode w = .unknown w ↔ opcodeRows.filter (rowMatches w) = [])

/-! ## The step -/

/-- A step of a running engine whose two bytes at an even `PC` in range decode to `i` is `exec` of `i`, in the state
in which the host's turn has been taken, the report is cleared and the timers are served; none of these three touches
registers, `PC`, stack, memory, screen, `FAULT` or `KEYMAP` (R120, 20_memory R72 R76). -/
def Obligations.StepRunsTheDecodedInstruction : Prop :=
  ∀ (s : State) (i : Instr), s.fault.cause = .noFault → Fetchable s.pc →
    decodeBytes (s.bytes s.pc.toNat 2) = .ok (i, []) →
    step s = exec i s.hostTurn.beginStep ∧
    (∀ r, s.hostTurn.beginStep.reg r = s.reg r) ∧ s.hostTurn.beginStep.index = s.index ∧
    s.hostTurn.beginStep.pc = s.pc ∧ SameStack s s.hostTurn.beginStep ∧ SameBytes s s.hostTurn.beginStep ∧
    SamePixels s s.hostTurn.beginStep ∧ s.hostTurn.beginStep.fault = s.fault ∧
    s.hostTurn.beginStep.keymap = s.keymap ∧ s.hostTurn.beginStep.report = ⟨false, 0, 0, false⟩ ∧
    (s.hostTurn.beginStep.dirty = true → s.dirty = true)

/-- The host's turn stands before the step: the first turn of the script gives `KEYS`, `TICK` and `RND` of this step and
may clear `DIRTY`, and is used up; with no script the turn is the free one of the counter `draws`, which moves on; nothing
else changes, and `DIRTY_CLEAR` alone clears `DIRTY` alone (10_state R39 R40 R42 R44 R45, 20_memory R76). How a turn
enters is the model's choice (log entry 4). -/
def Obligations.HostTurnIsTakenWhenTheStepBegins : Prop :=
  ∀ s : State, step s = engineStep s.hostTurn ∧
    (∀ h l, s.script = h :: l → s.hostTurn = { s with
      keys := h.keys, tick := h.tick, rnd := h.rnd, dirty := s.dirty && !h.dirtyClear, script := l }) ∧
    (s.script = [] → s.hostTurn = { s with
      keys := Config.freeKeys s.draws, tick := Config.freeTick s.draws, rnd := Config.freeRnd s.draws,
      dirty := s.dirty && !Config.freeDirtyClear s.draws, draws := s.draws + 1 }) ∧
    perform .dirtyClear s = .next { s with dirty := false }

/-- While the engine is halted its `STEP` does nothing at all (R131; the spec's decision D17). The model's step also
takes the host's turn, which samples inputs and may clear `DIRTY` (log entry 4). -/
def Obligations.HaltedStepDoesNothing : Prop :=
  ∀ s : State, s.fault.cause ≠ .noFault →
    engineStep s = .next s ∧ ∃ t, step s = .next t ∧ SameEngine s t ∧ t.report = s.report

/-- The timer service (R121): on a tick both timers count down, floored at zero, and `AUDIO` becomes "sound timer
nonzero after decrement"; with no tick nothing changes; nothing else is touched; and every step of a running engine
serves the timers before the fetch. -/
def Obligations.TimerServiceCountsDownOnATick : Prop :=
  ∀ s : State,
    (s.tick = true → s.timerService.dt.toNat = s.dt.toNat - 1 ∧ s.timerService.st.toNat = s.st.toNat - 1 ∧
      (s.timerService.audio = true ↔ s.timerService.st.toNat ≠ 0)) ∧
    (s.tick = false → s.timerService = s) ∧
    s.timerService = { s with dt := s.timerService.dt, st := s.timerService.st, audio := s.timerService.audio } ∧
    (s.fault.cause = .noFault → engineStep s = fetchAndExec s.clearReport.timerService)

/-- A step of a running engine at `PC > 0x0FFE` takes `FetchBounds`, at an odd `PC` in range `MisalignedFetch`; the
step's timer service stands, and nothing else changes (R122, 60_exceptions R253 R254 R259 R260; the spec's decisions
D6, D7, D17, D23). -/
def Obligations.FetchFaultsAreTaken : Prop :=
  ∀ s : State, s.fault.cause = .noFault →
    (0x0FFE < s.pc.toNat →
      step s = .next { s.hostTurn.beginStep with fault := ⟨.fetchBounds, s.pc, s.pc⟩ }) ∧
    (s.pc.toNat ≤ 0x0FFE → s.pc.toNat % 2 = 1 →
      step s = .next { s.hostTurn.beginStep with fault := ⟨.misalignedFetch, s.pc, s.pc⟩ })

/-- A fetch in range reads the byte at `PC` as the high byte and the byte at `PC + 1` as the low byte (20_memory R62;
the spec's decision D1). -/
def Obligations.FetchReadsTheHighByteFirst : Prop :=
  ∀ s : State, Fetchable s.pc → ∃ w : Word, s.fetch = .ok w ∧
    w.toNat = (s.byte s.pc.toNat).toNat * 256 + (s.byte (s.pc.toNat + 1)).toNat

/-- No step and no instruction ends in the host's fault or refused outcome: every one answers a next state. Which outcome
of the interface carries a fault of the machine is the model's choice (log entry 10), not a rule of the spec; what the
next state then holds follows R123 (decoding never raises a fault), 60_exceptions R257 (an unrecognized word is no
fault) and R260 (fault entry writes `FAULT` and halts; the spec's decision D17). -/
def Obligations.EveryStepAnswersANextState : Prop :=
  (∀ s : State, ∃ t, step s = .next t) ∧ ∀ (i : Instr) (s : State), ∃ t, exec i s = .next t

/-- A register-dump over the instruction stream is seen by the very next fetch: the word fetched is made of the two
registers stored there (20_memory R74, a derived rule). -/
def Obligations.StoredWordIsFetchedByTheNextStep : Prop :=
  ∀ (s : State) (x k k' : RegIdx), s.mem.wf s.font = true → s.index.toNat + x.toNat ≤ 4095 →
    k'.toNat = k.toNat + 1 → k'.toNat ≤ x.toNat → s.pc.toNat + 2 = s.index.toNat + k.toNat →
    s.pc.toNat % 2 = 0 →
    ∃ t, exec (.ldImemVx x) s = .next t ∧ t.fetch = .ok (wordOf (s.reg k) (s.reg k'))

/-- Every step that runs clears the report first; then it reports exactly an unrecognized word at `PC`, with `pc0` and
the word, and exactly an await-key that held (10_state R46, R240, R222; the spec's decision D27). -/
def Obligations.ReportSaysUnknownWordAndKeyWait : Prop :=
  ∀ s t : State, s.fault.cause = .noFault → step s = .next t →
    (∀ w, AtInstr s (.unknown w) → t.report = ⟨true, s.pc, w, false⟩) ∧
    ((∀ w, ¬ AtInstr s (.unknown w)) →
      t.report.unknownValid = false ∧ t.report.unknownPc = 0 ∧ t.report.unknownWord = 0) ∧
    (t.report.keywait = true ↔
      ∃ x, AtInstr s (.ldVxK x) ∧ ∀ k : KeyIdx, s.hostTurn.pressed k = false)

/-! ## Reset -/

/-- `RESET(IMAGE, FONT, KEYMAP)` under its preconditions completes from any state, the halted one included, and leaves
every element at its value in the table of 70_reset R290 (the spec's decisions D12, D13, D17, D27). -/
def Obligations.ResetGivesEveryElementItsValue : Prop :=
  ∀ (image : List Byte) (font : Font) (keymap : Vector KeyIdx 16) (s : State),
    image.length ≤ 3584 →
    ∃ t, perform (.reset image font keymap) s = .next t ∧
      (∀ r, t.reg r = 0) ∧ t.index = 0 ∧ t.pc = 0x0200 ∧ t.sp = 0 ∧ (∀ k : Fin 16, t.stack[k] = 0) ∧
      (∀ a : Fin 80, t.byte a.val = font[a]) ∧
      (∀ (k : Nat) (h : k < image.length), t.byte (0x200 + k) = image[k]) ∧
      (∀ a : Nat, 80 ≤ a → a < 0x200 ∨ 0x200 + image.length ≤ a → t.byte a = 0) ∧
      (∀ y x, t.pixel y x = false) ∧ t.dirty = false ∧ t.dt = 0 ∧ t.st = 0 ∧ t.audio = false ∧
      t.fault = ⟨.noFault, 0, 0⟩ ∧ t.report = ⟨false, 0, 0, false⟩ ∧ t.keymap = keymap

/-- A `RESET` that breaks a precondition of 70_reset R291 is refused by name: the spec describes no such launch (the
spec's decision D20; log entry 8). -/
def Obligations.BadLaunchIsRefusedByName : Prop :=
  ∀ (image : List Byte) (font : Font) (keymap : Vector KeyIdx 16) (s : State),
    3584 < image.length →
    perform (.reset image font keymap) s = .refused .notALaunch

/-! ## Control flow -/

/-- R141 jump and R143 jump-with-offset: the target is written to `PC` unmasked, and nothing else changes. -/
def Obligations.JumpsWriteTheirTargetUnmasked : Prop :=
  ∀ (nnn : Addr) (s : State),
    (∃ t, exec (.jpNnn nnn) s = .next t ∧ t.pc.toNat = nnn.toNat ∧ OnlyRegs [] s t) ∧
    (∃ t, exec (.jpV0Nnn nnn) s = .next t ∧ t.pc.toNat = nnn.toNat + (s.reg 0).toNat ∧ OnlyRegs [] s t)

/-- R142 call: with room, `STACK[SP]` takes `pc0 + 2`, `SP` gains 1, `PC` takes `NNN`; with 16 entries in use,
`StackOverflow(NNN)` and nothing is written (the fault is the spec's decision D5). -/
def Obligations.CallPushesTheReturnAddress : Prop :=
  ∀ (nnn : Addr) (s : State),
    (s.sp.val < 16 → ∃ t, exec (.callNnn nnn) s = .next t ∧ t.pc.toNat = nnn.toNat ∧
      t.sp.val = s.sp.val + 1 ∧
      (∀ k : Fin 16, t.stack[k] = if k.val = s.sp.val then s.pc + 2 else s.stack[k]) ∧ OnlyStack s t) ∧
    (s.sp.val = 16 → TakesFault (.callNnn nnn) s .stackOverflow (BitVec.ofNat 16 nnn.toNat))

/-- R140 return: with an entry, `SP` loses 1 and `PC` takes `STACK[SP]` with nothing added, the entry keeping its value;
with none, `StackUnderflow(0)` and nothing is written (the fault is the spec's decision D5). -/
def Obligations.ReturnPopsIntoTheProgramCounter : Prop :=
  ∀ s : State,
    (0 < s.sp.val → ∃ t, exec .ret s = .next t ∧ t.sp.val + 1 = s.sp.val ∧
      (∀ k : Fin 16, k.val + 1 = s.sp.val → t.pc = s.stack[k]) ∧ t.stack = s.stack ∧ OnlyStack s t) ∧
    (s.sp.val = 0 → TakesFault .ret s .stackUnderflow 0)

/-- Call then return: a return in any state whose stack is as the call left it lands on the instruction after the call,
with the stack pointer as before the call (the source property in R140; 90_conflicts C1). -/
def Obligations.ReturnLandsAfterTheCall : Prop :=
  ∀ (nnn : Addr) (s t u : State), s.sp.val < 16 → exec (.callNnn nnn) s = .next t →
    u.sp = t.sp → u.stack = t.stack →
    ∃ w, exec .ret u = .next w ∧ w.pc = s.pc + 2 ∧ w.sp = s.sp

/-- R146 to R149, the four register skips: `pc0 + 4` when the condition holds, else `pc0 + 2`; nothing else changes. -/
def Obligations.RegisterSkipsAddFourOrTwo : Prop :=
  ∀ (x y : RegIdx) (nn : Byte) (s : State),
    (∃ t, exec (.seVxNn x nn) s = .next t ∧
      t.pc = (if s.reg x = nn then s.pc + 4 else s.pc + 2) ∧ OnlyRegs [] s t) ∧
    (∃ t, exec (.sneVxNn x nn) s = .next t ∧
      t.pc = (if s.reg x ≠ nn then s.pc + 4 else s.pc + 2) ∧ OnlyRegs [] s t) ∧
    (∃ t, exec (.seVxVy x y) s = .next t ∧
      t.pc = (if s.reg x = s.reg y then s.pc + 4 else s.pc + 2) ∧ OnlyRegs [] s t) ∧
    (∃ t, exec (.sneVxVy x y) s = .next t ∧
      t.pc = (if s.reg x ≠ s.reg y then s.pc + 4 else s.pc + 2) ∧ OnlyRegs [] s t)

/-! ## Loads, arithmetic, logic, random -/

/-- R162 load-immediate, R163 add-immediate, R164 assign, R165 to R167 the bitwise operations: the value of `V[X]`,
`VF` untouched unless it is the destination. -/
def Obligations.LoadsAddImmediateAndLogicWriteOnlyVx : Prop :=
  ∀ (x y : RegIdx) (nn : Byte) (s : State),
    WritesReg (.ldVxNn x nn) s x (fun b => b = nn) ∧
    WritesReg (.addVxNn x nn) s x (fun b => b.toNat = ((s.reg x).toNat + nn.toNat) % 256) ∧
    WritesReg (.ldVxVy x y) s x (fun b => b = s.reg y) ∧
    WritesReg (.orVxVy x y) s x
      (fun b => ∀ k, b.getLsbD k = ((s.reg x).getLsbD k || (s.reg y).getLsbD k)) ∧
    WritesReg (.andVxVy x y) s x
      (fun b => ∀ k, b.getLsbD k = ((s.reg x).getLsbD k && (s.reg y).getLsbD k)) ∧
    WritesReg (.xorVxVy x y) s x
      (fun b => ∀ k, b.getLsbD k = ((s.reg x).getLsbD k ^^ (s.reg y).getLsbD k))

/-- R168 add-with-carry, R169 sub-with-borrow, R171 reverse-sub-with-borrow: the result modulo 256 and the flag, from
the operands as they were, the flag written last (the order is the spec's decision D9, R161). -/
def Obligations.ArithmeticWritesResultThenFlag : Prop :=
  ∀ (x y : RegIdx) (s : State),
    WritesRegAndFlag (.addVxVy x y) s x
      (fun b => b.toNat = ((s.reg x).toNat + (s.reg y).toNat) % 256)
      (255 < (s.reg x).toNat + (s.reg y).toNat) ∧
    WritesRegAndFlag (.subVxVy x y) s x
      (fun b => b.toNat = ((s.reg x).toNat + 256 - (s.reg y).toNat) % 256)
      ((s.reg y).toNat ≤ (s.reg x).toNat) ∧
    WritesRegAndFlag (.subnVxVy x y) s x
      (fun b => b.toNat = ((s.reg y).toNat + 256 - (s.reg x).toNat) % 256)
      ((s.reg x).toNat ≤ (s.reg y).toNat)

/-- R170 shift-right and R172 shift-left: one position, of `V[X]` in place whatever `Y` is; the flag is the bit shifted
out, written last (decision D9). -/
def Obligations.ShiftsMoveOneBitIntoTheFlag : Prop :=
  ∀ (x y : RegIdx) (s : State),
    WritesRegAndFlag (.shrVx x y) s x (fun b => b.toNat = (s.reg x).toNat / 2) ((s.reg x).toNat % 2 = 1) ∧
    WritesRegAndFlag (.shlVx x y) s x (fun b => b.toNat = (s.reg x).toNat * 2 % 256) (128 ≤ (s.reg x).toNat)

/-- R173 random-and: the byte sampled for the step, and-ed with the immediate, whatever that byte is (`RND` is a free
input, decision D15). -/
def Obligations.RandomAndMasksTheSampledByte : Prop :=
  ∀ (x : RegIdx) (nn : Byte) (s : State),
    WritesReg (.rndVxNn x nn) s x (fun b => ∀ k, b.getLsbD k = (s.rnd.getLsbD k && nn.getLsbD k))

/-! ## Index register and memory -/

/-- R180 set-index, R181 add-to-index (modulo 65536, no flag), R182 sprite-address (the whole byte times 5). That the sum
wraps at 65536 is derived in R181 from R27, and with the unmasked product it is the spec's decision D25. -/
def Obligations.IndexWritesLeaveFlagsAlone : Prop :=
  ∀ (nnn : Addr) (x : RegIdx) (s : State),
    (∃ t, exec (.ldINnn nnn) s = .next t ∧ t.index.toNat = nnn.toNat ∧ PcNext s t ∧ OnlyIndex s t) ∧
    (∃ t, exec (.addIVx x) s = .next t ∧ t.index.toNat = (s.index.toNat + (s.reg x).toNat) % 65536 ∧
      PcNext s t ∧ OnlyIndex s t) ∧
    (∃ t, exec (.ldFVx x) s = .next t ∧ t.index.toNat = (s.reg x).toNat * 5 ∧ PcNext s t ∧ OnlyIndex s t)

/-- R183 store-bcd: with the three bytes in range, the hundreds, tens and ones at `I`, `I + 1`, `I + 2` and nothing else;
otherwise `DataBounds(I)` and no byte written (the fault is the spec's decision D6). -/
def Obligations.StoreBcdWritesThreeDigits : Prop :=
  ∀ (x : RegIdx) (s : State),
    (s.mem.wf s.font = true → s.index.toNat ≤ 4093 → ∃ t, exec (.ldBVx x) s = .next t ∧
      (t.byte (s.effAddr 0)).toNat = (s.reg x).toNat / 100 ∧
      (t.byte (s.effAddr 1)).toNat = (s.reg x).toNat / 10 % 10 ∧
      (t.byte (s.effAddr 2)).toNat = (s.reg x).toNat % 10 ∧
      PcNext s t ∧ OnlyStore (s.effAddr 0) 3 s t) ∧
    (4093 < s.index.toNat → TakesFault (.ldBVx x) s .dataBounds s.index)

/-- R184 register-dump: with the span in range, `V[0..X]` at `I` to `I + X` and nothing else, `I` unchanged; otherwise
`DataBounds(I)` and no byte written (the fault is the spec's decision D6). -/
def Obligations.RegisterDumpStoresVzeroToVx : Prop :=
  ∀ (x : RegIdx) (s : State),
    (s.mem.wf s.font = true → s.index.toNat + x.toNat ≤ 4095 → ∃ t, exec (.ldImemVx x) s = .next t ∧
      (∀ k : RegIdx, k.toNat ≤ x.toNat → t.byte (s.effAddr k.toNat) = s.reg k) ∧
      PcNext s t ∧ OnlyStore (s.effAddr 0) (x.toNat + 1) s t) ∧
    (4095 < s.index.toNat + x.toNat → TakesFault (.ldImemVx x) s .dataBounds s.index)

/-- R185 register-load: with the span in range, `V[0..X]` take the bytes at `I` to `I + X`, registers above `X`, `I` and
memory unchanged; otherwise `DataBounds(I)` and no register written (the fault is the spec's decision D6). -/
def Obligations.RegisterLoadFillsVzeroToVx : Prop :=
  ∀ (x : RegIdx) (s : State),
    (s.index.toNat + x.toNat ≤ 4095 → ∃ t, exec (.ldVxImem x) s = .next t ∧
      (∀ k : RegIdx, t.reg k = if k.toNat ≤ x.toNat then s.byte (s.effAddr k.toNat) else s.reg k) ∧
      PcNext s t ∧ t.index = s.index ∧ SameBytes s t ∧ SameRest s t) ∧
    (4095 < s.index.toNat + x.toNat → TakesFault (.ldVxImem x) s .dataBounds s.index)

/-- What a register-dump stores, a register-load from the same `I` and the same memory gives back, whatever the
registers hold by then (R184, R185, 20_memory R71). -/
def Obligations.LoadAfterDumpRestoresTheRegisters : Prop :=
  ∀ (x : RegIdx) (s t u : State), s.mem.wf s.font = true → s.index.toNat + x.toNat ≤ 4095 →
    exec (.ldImemVx x) s = .next t → (∀ a, u.byte a = t.byte a) → u.index = t.index →
    ∃ w, exec (.ldVxImem x) u = .next w ∧ ∀ k : RegIdx, k.toNat ≤ x.toNat → w.reg k = s.reg k

/-! ## Display -/

/-- R200 clear-screen: every pixel 0, `DIRTY` 1 whatever it was, `VF` not written. -/
def Obligations.ClearScreenBlanksAndMarksDirty : Prop :=
  ∀ s : State, ∃ t, exec .cls s = .next t ∧ (∀ y x, t.pixel y x = false) ∧ t.dirty = true ∧
    PcNext s t ∧ OnlyScreen [] s t

/-- R201 draw-sprite with R202, R204 and R206 (a): with the span in range (always, when `N = 0`) each pixel addressed by
a set source bit is toggled and no other; `VF` is 1 exactly when one of them was set before, else 0; `DIRTY` is set
when any pixel toggled and otherwise as it was; out of range, `DataBounds(I)` and nothing changes. Rests on the
spec's decisions D6, D9, D16, D28 and on GK4. -/
def Obligations.DrawTogglesTheAddressedPixels : Prop :=
  ∀ (x y : RegIdx) (n : Nibble) (s : State),
    (n.toNat = 0 ∨ s.index.toNat + n.toNat - 1 ≤ 4095 → ∃ t, exec (.drwVxVyN x y n) s = .next t ∧
      (∀ py px, (Addressed s x y n py px → t.pixel py px = !s.pixel py px) ∧
        (¬ Addressed s x y n py px → t.pixel py px = s.pixel py px)) ∧
      (t.reg 15 = 1 ∨ t.reg 15 = 0) ∧
      (t.reg 15 = 1 ↔ ∃ py px, Addressed s x y n py px ∧ s.pixel py px = true) ∧
      (t.dirty = true ↔ s.dirty = true ∨ ∃ py px, Addressed s x y n py px) ∧
      PcNext s t ∧ OnlyScreen [15] s t) ∧
    (0 < n.toNat → 4095 < s.index.toNat + n.toNat - 1 → TakesFault (.drwVxVyN x y n) s .dataBounds s.index)

/-- R205, the XOR law: the same draw twice in succession restores every pixel; the first reports 1 exactly when some
addressed pixel was set, the second exactly when some addressed pixel was not (a derived sentence). The law needs
`X` and `Y` not to be 15. -/
def Obligations.DrawingTwiceRestoresTheScreen : Prop :=
  ∀ (x y : RegIdx) (n : Nibble) (s t : State), x ≠ 15 → y ≠ 15 →
    n.toNat = 0 ∨ s.index.toNat + n.toNat - 1 ≤ 4095 → exec (.drwVxVyN x y n) s = .next t →
    ∃ u, exec (.drwVxVyN x y n) t = .next u ∧ SamePixels s u ∧
      (t.reg 15 = 1 ↔ ∃ py px, Addressed s x y n py px ∧ s.pixel py px = true) ∧
      (u.reg 15 = 1 ↔ ∃ py px, Addressed s x y n py px ∧ s.pixel py px = false)

/-! ## Keys and timers -/

/-- R220, R221 with R226 and R227: the key tested is the one the register's value names, through `KEYMAP`; a value above
15 raises `KeyIndexRange(V[X])` and changes nothing (the fault is the spec's decision D8, the mapping D14). -/
def Obligations.KeySkipsTestTheMappedKey : Prop :=
  ∀ (x : RegIdx) (s : State),
    (∀ k : Fin 16, (s.reg x).toNat = k.val →
      (∃ t, exec (.skpVx x) s = .next t ∧
        t.pc = (if s.keys[(s.keymap[k]).toNat] = true then s.pc + 4 else s.pc + 2) ∧ OnlyRegs [] s t) ∧
      (∃ t, exec (.sknpVx x) s = .next t ∧
        t.pc = (if s.keys[(s.keymap[k]).toNat] = false then s.pc + 4 else s.pc + 2) ∧ OnlyRegs [] s t)) ∧
    (15 < (s.reg x).toNat →
      TakesFault (.skpVx x) s .keyIndexRange (BitVec.ofNat 16 (s.reg x).toNat) ∧
      TakesFault (.sknpVx x) s .keyIndexRange (BitVec.ofNat 16 (s.reg x).toNat))

/-- R222 await-key: the lowest virtual key that is pressed goes to `V[X]` and `PC` advances; with none pressed `PC` and
`V[X]` stay and the report says so (the scan order is the spec's decision D14, `keywait` D27). -/
def Obligations.AwaitKeyTakesTheLowestPressedKeyOrHolds : Prop :=
  ∀ (x : RegIdx) (s : State),
    (∀ k : Fin 16, s.keys[(s.keymap[k]).toNat] = true →
      (∀ j : Fin 16, j < k → s.keys[(s.keymap[j]).toNat] = false) →
      WritesReg (.ldVxK x) s x (fun b => b.toNat = k.val)) ∧
    ((∀ k : Fin 16, s.keys[(s.keymap[k]).toNat] = false) →
      ∃ t, exec (.ldVxK x) s = .next t ∧ t.pc = s.pc ∧ t.report = { s.report with keywait := true } ∧
        OnlyReport s t)

/-- R223 load-delay-timer, R224 set-delay-timer, R225 set-sound-timer (`AUDIO` not written). -/
def Obligations.TimerInstructionsMoveTheTimers : Prop :=
  ∀ (x : RegIdx) (s : State),
    WritesReg (.ldVxDt x) s x (fun b => b = s.dt) ∧
    (∃ t, exec (.ldDtVx x) s = .next t ∧ t.dt = s.reg x ∧ t.st = s.st ∧ PcNext s t ∧ OnlyTimers s t) ∧
    (∃ t, exec (.ldStVx x) s = .next t ∧ t.st = s.reg x ∧ t.dt = s.dt ∧ PcNext s t ∧ OnlyTimers s t)

/-! ## The fallback -/

/-- R240 unrecognized: reported with `pc0` and the word, `PC + 2`, no other effect and no fault. -/
def Obligations.UnknownWordIsReportedAndSkipped : Prop :=
  ∀ (w : Word) (s : State), ∃ t, exec (.unknown w) s = .next t ∧ t.report.unknownValid = true ∧
    t.report.unknownPc = s.pc ∧ t.report.unknownWord = w ∧ t.report.keywait = s.report.keywait ∧
    PcNext s t ∧ OnlyReport s t

/-! ## Rules of the whole machine -/

/-- 10_state R21 and R23: an instruction changes no register but its destinations, and `VF` as a flag only if it is one
of the six flag writers. -/
def Obligations.RegistersChangeOnlyWhereListed : Prop :=
  ∀ (i : Instr) (s t : State) (r : RegIdx), exec i s = .next t → r ∉ Instr.destRegs i →
    ¬ (r = 15 ∧ Instr.writesFlag i = true) → t.reg r = s.reg r

/-- 10_state R27: only set-index, add-to-index and sprite-address write `I`. -/
def Obligations.IndexChangesOnlyInThreeInstructions : Prop :=
  ∀ (i : Instr) (s t : State), exec i s = .next t → (∀ nnn, i ≠ .ldINnn nnn) → (∀ x, i ≠ .addIVx x) →
    (∀ x, i ≠ .ldFVx x) → t.index = s.index

/-- 10_state R28, R29, R38: only call and return change `SP` or an entry, and return changes no entry. -/
def Obligations.StackChangesOnlyInCallAndReturn : Prop :=
  ∀ (i : Instr) (s t : State), exec i s = .next t → (∀ nnn, i ≠ .callNnn nnn) →
    t.stack = s.stack ∧ (i ≠ .ret → t.sp = s.sp)

/-- 10_state R33, R34: only clear-screen and draw-sprite change a pixel or `DIRTY`, and no instruction clears
`DIRTY`. -/
def Obligations.ScreenChangesOnlyInClearAndDraw : Prop :=
  ∀ (i : Instr) (s t : State), exec i s = .next t → (s.dirty = true → t.dirty = true) ∧
    (i ≠ .cls → (∀ x y n, i ≠ .drwVxVyN x y n) → SamePixels s t ∧ t.dirty = s.dirty)

/-- R124, 10_state R35 to R37: only set-delay-timer writes `DT`, only set-sound-timer writes `ST`, and no instruction
writes `AUDIO`. -/
def Obligations.TimersChangeOnlyInTimerSets : Prop :=
  ∀ (i : Instr) (s t : State), exec i s = .next t → t.audio = s.audio ∧
    ((∀ x, i ≠ .ldDtVx x) → t.dt = s.dt) ∧ ((∀ x, i ≠ .ldStVx x) → t.st = s.st)

/-- 20_memory R60: only store-bcd and register-dump change a byte of memory, and only inside their span from `I`. -/
def Obligations.MemoryChangesOnlyInTheTwoStores : Prop :=
  ∀ (i : Instr) (s t : State), exec i s = .next t → SameBytesOutside s.index.toNat (Instr.span i) s t ∧
    ((∀ x, i ≠ .ldBVx x) → (∀ x, i ≠ .ldImemVx x) → SameBytes s t)

/-- 10_state R40: no instruction writes the input vector, `TICK`, `RND` or the key mapping. -/
def Obligations.InputsAndKeyMappingAreNeverWritten : Prop :=
  ∀ (i : Instr) (s t : State), exec i s = .next t → SameHostSide s t

/-- 10_state R45: only random-and reads the random byte. Any other instruction does the same whatever the byte is. -/
def Obligations.OnlyRandomAndReadsTheRandomByte : Prop :=
  ∀ (i : Instr) (s t : State) (b : Byte), (∀ x nn, i ≠ .rndVxNn x nn) → exec i s = .next t →
    exec i { s with rnd := b } = .next { t with rnd := b }

/-- 40_step_cycle R130: the program-counter policy of every instruction, as the table `pcAfter` writes it out, when the
instruction does not fault; when it faults `PC` keeps `pc0`. -/
def Obligations.ProgramCounterPolicies : Prop :=
  ∀ (i : Instr) (s t : State), exec i s = .next t →
    t.pc = if faultOf i s = none then pcAfter i s else s.pc

/-- 60_exceptions R250, R260: an instruction faults exactly when the table `faultOf` says, with that cause and info;
then nothing but `FAULT` changes, and otherwise `FAULT` does not change. Rests on the spec's decisions D5, D6, D8,
D17, D22. -/
def Obligations.FaultsAreThoseOfTheTableAndPrecise : Prop :=
  ∀ (i : Instr) (s : State),
    (∀ c info, faultOf i s = some (c, info) → TakesFault i s c info) ∧
    (faultOf i s = none → ∃ t, exec i s = .next t ∧ t.fault = s.fault)

/-! ## Invariants -/

/-- Every step keeps memory in canonical form and inside 0x000 to 0xFFF (20_memory R60, R61; the form is the model's,
log entry 6). -/
def Obligations.StepKeepsMemoryCanonical : Prop :=
  ∀ s t : State, MemoryCanonical s → step s = .next t → MemoryCanonical t

/-- Every step keeps the entries in use of the call stack return addresses (even, 0x0002 to 0x1000) and `PC` at most
0x10FE (derived sentences of R140 and 10_state R25). -/
def Obligations.StepKeepsReturnAddressesSound : Prop :=
  ∀ s t : State, ControlSound s → step s = .next t → ControlSound t

/-- Every step keeps `FAULT` true of the machine: while the engine is halted, `FAULT.pc` is `PC`, and cause and info are
those the table of 60_exceptions R250 gives for the fetch at `PC` or for the instruction that stands there
(R250, R259, R260, R131; the spec's decisions D5 to D8, D17, D22, D23). -/
def Obligations.StepKeepsTheFaultRecordTrue : Prop :=
  ∀ s t : State, FaultSound s → step s = .next t → FaultSound t

/-- The three invariants hold at reset (70_reset R290). -/
def Obligations.ResetMeetsTheInvariants : Prop :=
  MemoryCanonical State.reset ∧ ControlSound State.reset ∧ FaultSound State.reset

/-- Whatever the host does, a launch included, the three invariants are kept (10_state R39 to R46, 70_reset R290 R297). -/
def Obligations.HostActionsKeepTheInvariants : Prop :=
  ∀ (a : HostAction) (s t : State), MemoryCanonical s → ControlSound s → FaultSound s →
    perform a s = .next t → MemoryCanonical t ∧ ControlSound t ∧ FaultSound t

/-- 70_reset R297, 10_state R42: between steps, short of a reset, the host changes no engine state but `DIRTY`, and that
only to 0. -/
def Obligations.HostHasNoPortIntoTheEngine : Prop :=
  ∀ (a : HostAction) (s t : State), a ≠ .step → (∀ image font keymap, a ≠ .reset image font keymap) →
    perform a s = .next t → SameEngine s t ∧ t.report = s.report

/-! ## Runs from any state -/

/-- R131, 60_exceptions R261: a halted engine stays as it is for any number of steps (the spec's decision D17; the
host may clear `DIRTY`). -/
def Obligations.HaltedEngineStaysHalted : Prop :=
  ∀ (n : Nat) (s : State), s.fault.cause ≠ .noFault →
    ∃ t, Host.Core.run Sys2Proof.core n s = .next t ∧ SameEngine s t ∧ t.report = s.report

/-- 70_reset R305 (a derived sentence): once the program has ended in a self-jump, for any number of steps only the
timers and `AUDIO` move. That `PC` must be fetchable for "ended" is the model's choice (log entry 12). -/
def Obligations.SelfJumpMovesOnlyTheTimers : Prop :=
  ∀ (n : Nat) (s : State), Ended s →
    ∃ t, Host.Core.run Sys2Proof.core n s = .next t ∧ Ended t ∧ SameRegsExcept [] s t ∧ t.index = s.index ∧
      t.pc = s.pc ∧ SameStack s t ∧ SameBytes s t ∧ SamePixels s t ∧ t.fault = s.fault ∧
      (t.dirty = true → s.dirty = true)

/-- 60_exceptions R265 (a) (derived): over `n` steps with `TICK = 1`, here those of a program that has ended and so
rewrites no timer, a timer that holds `m` counts down to `m - n`, floored at zero. What counts as ended at an unfetchable
`PC` is the model's choice (log entry 12). -/
def Obligations.TimersReachZeroAfterThatManyTicks : Prop :=
  ∀ (n : Nat) (s : State), Ended s → n ≤ s.script.length → (∀ h ∈ s.script.take n, h.tick = true) →
    ∃ t, Host.Core.run Sys2Proof.core n s = .next t ∧ t.dt.toNat = s.dt.toNat - n ∧
      t.st.toNat = s.st.toNat - n

/-- The source property in R222: with no key pressed, repeated steps on an await-key leave `PC` and every register
unmodified, and each says so in its report. -/
def Obligations.AwaitKeyHoldsStepAfterStep : Prop :=
  ∀ (n : Nat) (x : RegIdx) (s : State), AtInstr s (.ldVxK x) → n ≤ s.script.length →
    (∀ h ∈ s.script.take n, ∀ k : Fin 16, h.keys[k] = false) →
    ∃ t, Host.Core.run Sys2Proof.core n s = .next t ∧ t.pc = s.pc ∧ SameRegsExcept [] s t ∧
      SameBytes s t ∧ t.fault = s.fault ∧ (0 < n → t.report.keywait = true)
end

