-- ==== Sys2Proof/Laws/Memory.lean ====
section
/-! SUPPORT. The laws of memory: a read after a write, and that every memory operation keeps the canonical form and
stays inside the address space. -/

namespace Sys2Proof.Machine

variable {f : Font}

theorem Memory.read_consCell_same (a : Nat) (b : Byte) (m : Memory) (h : Memory.read f m a = Memory.unlisted f a) :
    Memory.read f (Memory.consCell f a b m) a = b := by
  unfold Memory.consCell
  split <;> simp_all [Memory.read]

theorem Memory.read_consCell_ne {a c : Nat} (b : Byte) (m : Memory) (h : c ≠ a) :
    Memory.read f (Memory.consCell f a b m) c = Memory.read f m c := by
  unfold Memory.consCell
  split <;> simp [Memory.read, h]

/-- Below its least address a canonical memory reads as unlisted. -/
theorem Memory.read_of_wfFrom {m : Memory} {lo a : Nat} (h : Memory.wfFrom f lo m = true) (ha : a < lo) :
    Memory.read f m a = Memory.unlisted f a := by
  induction m generalizing lo with
  | nil => rfl
  | cons cell m ih =>
    obtain ⟨c, d⟩ := cell
    simp only [Memory.wfFrom, Bool.and_eq_true, decide_eq_true_eq] at h
    have hne : a ≠ c := by omega
    simp only [Memory.read, hne, if_false]
    exact ih h.2 (by omega)

/-- A read elsewhere is not disturbed by a write, in any memory. -/
theorem Memory.read_write_ne (m : Memory) {a c : Nat} (b : Byte) (h : c ≠ a) :
    Memory.read f (Memory.write f m a b) c = Memory.read f m c := by
  induction m with
  | nil => exact Memory.read_consCell_ne b [] h
  | cons cell m ih =>
    obtain ⟨e, d⟩ := cell
    simp only [Memory.write]
    split
    · exact Memory.read_consCell_ne b _ h
    · split
      · next he => rw [Memory.read_consCell_ne b m h]; simp [Memory.read, he ▸ h]
      · simp only [Memory.read]; split
        · rfl
        · exact ih

/-- A read gives what was written, in a canonical memory. -/
theorem Memory.read_write_same_of_wfFrom {m : Memory} {lo a : Nat} (b : Byte) (h : Memory.wfFrom f lo m = true) :
    Memory.read f (Memory.write f m a b) a = b := by
  induction m generalizing lo with
  | nil => exact Memory.read_consCell_same a b [] rfl
  | cons cell m ih =>
    obtain ⟨e, d⟩ := cell
    have h' := h
    simp only [Memory.wfFrom, Bool.and_eq_true, decide_eq_true_eq] at h'
    simp only [Memory.write]
    split
    · next hlt =>
      apply Memory.read_consCell_same
      simp only [Memory.read, show a ≠ e by omega, if_false]
      exact Memory.read_of_wfFrom h'.2 (by omega)
    · split
      · next he =>
        apply Memory.read_consCell_same
        exact Memory.read_of_wfFrom h'.2 (by omega)
      · next hne =>
        simp only [Memory.read, hne, if_false]
        exact ih h'.2

theorem Memory.read_write_same {m : Memory} (h : (m.wf f) = true) (a : Nat) (b : Byte) :
    (m.write f a b).read f a = b := Memory.read_write_same_of_wfFrom b h

theorem Memory.wfFrom_mono {m : Memory} {lo lo' : Nat} (h : Memory.wfFrom f lo m = true) (hl : lo' ≤ lo) :
    Memory.wfFrom f lo' m = true := by
  cases m with
  | nil => rfl
  | cons cell m =>
    simp only [Memory.wfFrom, Bool.and_eq_true, decide_eq_true_eq] at h ⊢
    exact ⟨⟨by omega, h.1.2⟩, h.2⟩

theorem Memory.wfFrom_consCell {m : Memory} {lo a : Nat} (b : Byte) (h : Memory.wfFrom f (a + 1) m = true)
    (ha : lo ≤ a) : Memory.wfFrom f lo (Memory.consCell f a b m) = true := by
  unfold Memory.consCell
  split
  · exact Memory.wfFrom_mono h (by omega)
  · next hb => simp [Memory.wfFrom, ha, hb, h]

theorem Memory.wfFrom_write {m : Memory} {lo a : Nat} (b : Byte) (h : Memory.wfFrom f lo m = true) (ha : lo ≤ a) :
    Memory.wfFrom f lo (Memory.write f m a b) = true := by
  induction m generalizing lo with
  | nil => exact Memory.wfFrom_consCell b rfl ha
  | cons cell m ih =>
    obtain ⟨e, d⟩ := cell
    have h' := h
    simp only [Memory.wfFrom, Bool.and_eq_true, decide_eq_true_eq] at h'
    simp only [Memory.write]
    split
    · next hlt =>
      refine Memory.wfFrom_consCell b ?_ ha
      simp only [Memory.wfFrom, Bool.and_eq_true, decide_eq_true_eq]
      exact ⟨⟨by omega, h'.1.2⟩, h'.2⟩
    · split
      · next he => exact Memory.wfFrom_consCell b (he ▸ h'.2) ha
      · next hne =>
        simp only [Memory.wfFrom, Bool.and_eq_true, decide_eq_true_eq]
        exact ⟨h'.1, ih h'.2 (by omega)⟩

/-- A write keeps the canonical form. -/
theorem Memory.wf_write {m : Memory} (h : (m.wf f) = true) (a : Nat) (b : Byte) : (m.write f a b).wf f = true :=
  Memory.wfFrom_write b h (Nat.zero_le a)

theorem Memory.inSpace_cons (a : Nat) (b : Byte) (m : Memory) :
    Memory.inSpace ((a, b) :: m) = true ↔ a < 4096 ∧ Memory.inSpace m = true := by
  unfold Memory.inSpace
  rw [List.all_cons, Bool.and_eq_true, decide_eq_true_eq]

theorem Memory.inSpace_consCell {m : Memory} {a : Nat} (b : Byte) (h : m.inSpace = true) (ha : a < 4096) :
    (Memory.consCell f a b m).inSpace = true := by
  unfold Memory.consCell
  split
  · exact h
  · exact (Memory.inSpace_cons a b m).2 ⟨ha, h⟩

/-- A write inside the address space stays inside it. -/
theorem Memory.inSpace_write {m : Memory} (h : m.inSpace = true) {a : Nat} (b : Byte) (ha : a < 4096) :
    (m.write f a b).inSpace = true := by
  induction m with
  | nil => exact Memory.inSpace_consCell b rfl ha
  | cons cell m ih =>
    obtain ⟨e, d⟩ := cell
    have ht := (Memory.inSpace_cons e d m).1 h
    simp only [Memory.write]
    split
    · exact Memory.inSpace_consCell b h ha
    · split
      · exact Memory.inSpace_consCell b ht.2 ha
      · exact (Memory.inSpace_cons e d _).2 ⟨ht.1, ih ht.2⟩

theorem Memory.wf_writeBytes {m : Memory} (h : (m.wf f) = true) (a : Nat) (bs : List Byte) :
    (m.writeBytes f a bs).wf f = true := by
  induction bs generalizing m a with
  | nil => exact h
  | cons b bs ih => exact ih (Memory.wf_write h a b) (a + 1)

theorem Memory.inSpace_writeBytes {m : Memory} (h : m.inSpace = true) {a : Nat} {bs : List Byte}
    (ha : bs = [] ∨ a + bs.length ≤ 4096) : (m.writeBytes f a bs).inSpace = true := by
  induction bs generalizing m a with
  | nil => exact h
  | cons b bs ih =>
    simp only [List.length_cons, reduceCtorEq, false_or] at ha
    exact ih (Memory.inSpace_write h b (by omega)) (by right; omega)

/-- Outside the stored bytes every address reads as before, in any memory. -/
theorem Memory.read_writeBytes_outside (m : Memory) (a : Nat) (bs : List Byte) {c : Nat}
    (h : c < a ∨ a + bs.length ≤ c) : (m.writeBytes f a bs).read f c = m.read f c := by
  induction bs generalizing m a with
  | nil => rfl
  | cons b bs ih =>
    simp only [List.length_cons] at h
    rw [Memory.writeBytes, ih (m.write f a b) (a + 1) (by omega), Memory.read_write_ne m b (by omega)]

/-- Inside the stored bytes each address reads as its byte, in a canonical memory. -/
theorem Memory.read_writeBytes_inside {m : Memory} (hm : (m.wf f) = true) (a : Nat) (bs : List Byte) {k : Nat}
    (h : k < bs.length) : (m.writeBytes f a bs).read f (a + k) = bs[k] := by
  induction bs generalizing m a k with
  | nil => simp at h
  | cons b bs ih =>
    rw [Memory.writeBytes]
    cases k with
    | zero =>
      rw [Memory.read_writeBytes_outside _ _ _ (by omega)]
      simpa using Memory.read_write_same hm a b
    | succ k =>
      have := ih (Memory.wf_write hm a b) (a + 1) (k := k) (by simpa using h)
      rw [show a + (k + 1) = a + 1 + k by omega, this]; rfl

/-- Two canonical memories that read alike are equal data. -/
theorem Memory.wfFrom_ext {m n : Memory} {lo : Nat} (hm : Memory.wfFrom f lo m = true)
    (hn : Memory.wfFrom f lo n = true) (h : ∀ a, Memory.read f m a = Memory.read f n a) : m = n := by
  induction m generalizing n lo with
  | nil =>
    cases n with
    | nil => rfl
    | cons cell n =>
      simp only [Memory.wfFrom, Bool.and_eq_true, decide_eq_true_eq] at hn
      have := h cell.1
      simp only [Memory.read, if_true] at this
      exact absurd this.symm hn.1.2
  | cons cell m ih =>
    obtain ⟨a, b⟩ := cell
    have hm' := hm
    simp only [Memory.wfFrom, Bool.and_eq_true, decide_eq_true_eq] at hm'
    cases n with
    | nil =>
      have := h a
      simp only [Memory.read, if_true] at this
      exact absurd this hm'.1.2
    | cons cell' n =>
      obtain ⟨a', b'⟩ := cell'
      have hn' := hn
      simp only [Memory.wfFrom, Bool.and_eq_true, decide_eq_true_eq] at hn'
      have ha : a = a' := by
        rcases Nat.lt_trichotomy a a' with hl | he | hg
        · have := h a
          have hn'' : Memory.wfFrom f a' ((a', b') :: n) = true := by simp [Memory.wfFrom, hn'.1.2, hn'.2]
          rw [Memory.read_of_wfFrom hn'' hl] at this
          simp only [Memory.read, if_true] at this
          exact absurd this hm'.1.2
        · exact he
        · have := h a'
          have hm'' : Memory.wfFrom f a ((a, b) :: m) = true := by simp [Memory.wfFrom, hm'.1.2, hm'.2]
          rw [Memory.read_of_wfFrom hm'' hg] at this
          simp only [Memory.read, if_true] at this
          exact absurd this.symm hn'.1.2
      subst ha
      have hb : b = b' := by simpa [Memory.read] using h a
      subst hb
      refine congrArg _ (ih hm'.2 hn'.2 fun c => ?_)
      rcases Nat.lt_or_ge c (a + 1) with hc | hc
      · rw [Memory.read_of_wfFrom hm'.2 hc, Memory.read_of_wfFrom hn'.2 hc]
      · have := h c
        simpa [Memory.read, show c ≠ a by omega] using this

/-- Two canonical memories that read alike are equal data. -/
theorem Memory.wf_ext {m n : Memory} (hm : (m.wf f) = true) (hn : (n.wf f) = true)
    (h : ∀ a, m.read f a = n.read f a) : m = n := Memory.wfFrom_ext hm hn h

/-- `CheckRange` as an inequality (20_memory R61). -/
theorem checkRange_iff (b : Word) (n : Nat) : checkRange b n = true ↔ n = 0 ∨ b.toNat + n - 1 ≤ 4095 := by
  simp [checkRange]

theorem checkRange_false_iff (b : Word) (n : Nat) :
    checkRange b n = false ↔ 0 < n ∧ 4095 < b.toNat + n - 1 := by
  rw [← Bool.not_eq_true, checkRange_iff]; omega

end Sys2Proof.Machine
end

