-- ==== Sys2Proof/Laws/State.lean ====
section
/-! SUPPORT. One lemma per field per update of State, each true by rfl, so that no later proof unfolds a record
update. The registers are read through `State.reg`, the pixels through `State.pixel`, memory
through `State.byte` and `State.word`. -/

namespace Sys2Proof.Machine

variable (s : State)

/-! ## setReg -/

@[simp] theorem State.setReg_v (x : RegIdx) (b : Byte) : (s.setReg x b).v = s.v.set x.toNat b x.isLt := rfl
@[simp] theorem State.setReg_index (x : RegIdx) (b : Byte) : (s.setReg x b).index = s.index := rfl
@[simp] theorem State.setReg_pc (x : RegIdx) (b : Byte) : (s.setReg x b).pc = s.pc := rfl
@[simp] theorem State.setReg_sp (x : RegIdx) (b : Byte) : (s.setReg x b).sp = s.sp := rfl
@[simp] theorem State.setReg_stack (x : RegIdx) (b : Byte) : (s.setReg x b).stack = s.stack := rfl
@[simp] theorem State.setReg_mem (x : RegIdx) (b : Byte) : (s.setReg x b).mem = s.mem := rfl
@[simp] theorem State.setReg_fb (x : RegIdx) (b : Byte) : (s.setReg x b).fb = s.fb := rfl
@[simp] theorem State.setReg_dirty (x : RegIdx) (b : Byte) : (s.setReg x b).dirty = s.dirty := rfl
@[simp] theorem State.setReg_dt (x : RegIdx) (b : Byte) : (s.setReg x b).dt = s.dt := rfl
@[simp] theorem State.setReg_st (x : RegIdx) (b : Byte) : (s.setReg x b).st = s.st := rfl
@[simp] theorem State.setReg_audio (x : RegIdx) (b : Byte) : (s.setReg x b).audio = s.audio := rfl
@[simp] theorem State.setReg_fault (x : RegIdx) (b : Byte) : (s.setReg x b).fault = s.fault := rfl
@[simp] theorem State.setReg_report (x : RegIdx) (b : Byte) : (s.setReg x b).report = s.report := rfl
@[simp] theorem State.setReg_font (x : RegIdx) (b : Byte) : (s.setReg x b).font = s.font := rfl
@[simp] theorem State.setReg_keymap (x : RegIdx) (b : Byte) : (s.setReg x b).keymap = s.keymap := rfl
@[simp] theorem State.setReg_keys (x : RegIdx) (b : Byte) : (s.setReg x b).keys = s.keys := rfl
@[simp] theorem State.setReg_tick (x : RegIdx) (b : Byte) : (s.setReg x b).tick = s.tick := rfl
@[simp] theorem State.setReg_rnd (x : RegIdx) (b : Byte) : (s.setReg x b).rnd = s.rnd := rfl
@[simp] theorem State.setReg_script (x : RegIdx) (b : Byte) : (s.setReg x b).script = s.script := rfl
@[simp] theorem State.setReg_draws (x : RegIdx) (b : Byte) : (s.setReg x b).draws = s.draws := rfl
@[simp] theorem State.setReg_pixel (x : RegIdx) (b : Byte) (i : Fin 32) (j : Fin 64) : (s.setReg x b).pixel i j = s.pixel i j := rfl
@[simp] theorem State.setReg_byte (x : RegIdx) (b : Byte) (i : Nat) : (s.setReg x b).byte i = s.byte i := rfl
@[simp] theorem State.setReg_word (x : RegIdx) (b : Byte) (i : Nat) : (s.setReg x b).word i = s.word i := rfl

/-! ## setFlag -/

@[simp] theorem State.setFlag_index (c : Bool) : (s.setFlag c).index = s.index := rfl
@[simp] theorem State.setFlag_pc (c : Bool) : (s.setFlag c).pc = s.pc := rfl
@[simp] theorem State.setFlag_sp (c : Bool) : (s.setFlag c).sp = s.sp := rfl
@[simp] theorem State.setFlag_stack (c : Bool) : (s.setFlag c).stack = s.stack := rfl
@[simp] theorem State.setFlag_mem (c : Bool) : (s.setFlag c).mem = s.mem := rfl
@[simp] theorem State.setFlag_fb (c : Bool) : (s.setFlag c).fb = s.fb := rfl
@[simp] theorem State.setFlag_dirty (c : Bool) : (s.setFlag c).dirty = s.dirty := rfl
@[simp] theorem State.setFlag_dt (c : Bool) : (s.setFlag c).dt = s.dt := rfl
@[simp] theorem State.setFlag_st (c : Bool) : (s.setFlag c).st = s.st := rfl
@[simp] theorem State.setFlag_audio (c : Bool) : (s.setFlag c).audio = s.audio := rfl
@[simp] theorem State.setFlag_fault (c : Bool) : (s.setFlag c).fault = s.fault := rfl
@[simp] theorem State.setFlag_report (c : Bool) : (s.setFlag c).report = s.report := rfl
@[simp] theorem State.setFlag_font (c : Bool) : (s.setFlag c).font = s.font := rfl
@[simp] theorem State.setFlag_keymap (c : Bool) : (s.setFlag c).keymap = s.keymap := rfl
@[simp] theorem State.setFlag_keys (c : Bool) : (s.setFlag c).keys = s.keys := rfl
@[simp] theorem State.setFlag_tick (c : Bool) : (s.setFlag c).tick = s.tick := rfl
@[simp] theorem State.setFlag_rnd (c : Bool) : (s.setFlag c).rnd = s.rnd := rfl
@[simp] theorem State.setFlag_script (c : Bool) : (s.setFlag c).script = s.script := rfl
@[simp] theorem State.setFlag_draws (c : Bool) : (s.setFlag c).draws = s.draws := rfl
@[simp] theorem State.setFlag_pixel (c : Bool) (i : Fin 32) (j : Fin 64) : (s.setFlag c).pixel i j = s.pixel i j := rfl
@[simp] theorem State.setFlag_byte (c : Bool) (i : Nat) : (s.setFlag c).byte i = s.byte i := rfl
@[simp] theorem State.setFlag_word (c : Bool) (i : Nat) : (s.setFlag c).word i = s.word i := rfl

/-! ## setResultAndFlag -/

@[simp] theorem State.setResultAndFlag_index (x : RegIdx) (b : Byte) (c : Bool) : (s.setResultAndFlag x b c).index = s.index := rfl
@[simp] theorem State.setResultAndFlag_pc (x : RegIdx) (b : Byte) (c : Bool) : (s.setResultAndFlag x b c).pc = s.pc := rfl
@[simp] theorem State.setResultAndFlag_sp (x : RegIdx) (b : Byte) (c : Bool) : (s.setResultAndFlag x b c).sp = s.sp := rfl
@[simp] theorem State.setResultAndFlag_stack (x : RegIdx) (b : Byte) (c : Bool) : (s.setResultAndFlag x b c).stack = s.stack := rfl
@[simp] theorem State.setResultAndFlag_mem (x : RegIdx) (b : Byte) (c : Bool) : (s.setResultAndFlag x b c).mem = s.mem := rfl
@[simp] theorem State.setResultAndFlag_fb (x : RegIdx) (b : Byte) (c : Bool) : (s.setResultAndFlag x b c).fb = s.fb := rfl
@[simp] theorem State.setResultAndFlag_dirty (x : RegIdx) (b : Byte) (c : Bool) : (s.setResultAndFlag x b c).dirty = s.dirty := rfl
@[simp] theorem State.setResultAndFlag_dt (x : RegIdx) (b : Byte) (c : Bool) : (s.setResultAndFlag x b c).dt = s.dt := rfl
@[simp] theorem State.setResultAndFlag_st (x : RegIdx) (b : Byte) (c : Bool) : (s.setResultAndFlag x b c).st = s.st := rfl
@[simp] theorem State.setResultAndFlag_audio (x : RegIdx) (b : Byte) (c : Bool) : (s.setResultAndFlag x b c).audio = s.audio := rfl
@[simp] theorem State.setResultAndFlag_fault (x : RegIdx) (b : Byte) (c : Bool) : (s.setResultAndFlag x b c).fault = s.fault := rfl
@[simp] theorem State.setResultAndFlag_report (x : RegIdx) (b : Byte) (c : Bool) : (s.setResultAndFlag x b c).report = s.report := rfl
@[simp] theorem State.setResultAndFlag_font (x : RegIdx) (b : Byte) (c : Bool) : (s.setResultAndFlag x b c).font = s.font := rfl
@[simp] theorem State.setResultAndFlag_keymap (x : RegIdx) (b : Byte) (c : Bool) : (s.setResultAndFlag x b c).keymap = s.keymap := rfl
@[simp] theorem State.setResultAndFlag_keys (x : RegIdx) (b : Byte) (c : Bool) : (s.setResultAndFlag x b c).keys = s.keys := rfl
@[simp] theorem State.setResultAndFlag_tick (x : RegIdx) (b : Byte) (c : Bool) : (s.setResultAndFlag x b c).tick = s.tick := rfl
@[simp] theorem State.setResultAndFlag_rnd (x : RegIdx) (b : Byte) (c : Bool) : (s.setResultAndFlag x b c).rnd = s.rnd := rfl
@[simp] theorem State.setResultAndFlag_script (x : RegIdx) (b : Byte) (c : Bool) : (s.setResultAndFlag x b c).script = s.script := rfl
@[simp] theorem State.setResultAndFlag_draws (x : RegIdx) (b : Byte) (c : Bool) : (s.setResultAndFlag x b c).draws = s.draws := rfl
@[simp] theorem State.setResultAndFlag_pixel (x : RegIdx) (b : Byte) (c : Bool) (i : Fin 32) (j : Fin 64) : (s.setResultAndFlag x b c).pixel i j = s.pixel i j := rfl
@[simp] theorem State.setResultAndFlag_byte (x : RegIdx) (b : Byte) (c : Bool) (i : Nat) : (s.setResultAndFlag x b c).byte i = s.byte i := rfl
@[simp] theorem State.setResultAndFlag_word (x : RegIdx) (b : Byte) (c : Bool) (i : Nat) : (s.setResultAndFlag x b c).word i = s.word i := rfl

/-! ## loadRegs -/

@[simp] theorem State.loadRegs_index (x : RegIdx) (a : Nat) : (s.loadRegs x a).index = s.index := rfl
@[simp] theorem State.loadRegs_pc (x : RegIdx) (a : Nat) : (s.loadRegs x a).pc = s.pc := rfl
@[simp] theorem State.loadRegs_sp (x : RegIdx) (a : Nat) : (s.loadRegs x a).sp = s.sp := rfl
@[simp] theorem State.loadRegs_stack (x : RegIdx) (a : Nat) : (s.loadRegs x a).stack = s.stack := rfl
@[simp] theorem State.loadRegs_mem (x : RegIdx) (a : Nat) : (s.loadRegs x a).mem = s.mem := rfl
@[simp] theorem State.loadRegs_fb (x : RegIdx) (a : Nat) : (s.loadRegs x a).fb = s.fb := rfl
@[simp] theorem State.loadRegs_dirty (x : RegIdx) (a : Nat) : (s.loadRegs x a).dirty = s.dirty := rfl
@[simp] theorem State.loadRegs_dt (x : RegIdx) (a : Nat) : (s.loadRegs x a).dt = s.dt := rfl
@[simp] theorem State.loadRegs_st (x : RegIdx) (a : Nat) : (s.loadRegs x a).st = s.st := rfl
@[simp] theorem State.loadRegs_audio (x : RegIdx) (a : Nat) : (s.loadRegs x a).audio = s.audio := rfl
@[simp] theorem State.loadRegs_fault (x : RegIdx) (a : Nat) : (s.loadRegs x a).fault = s.fault := rfl
@[simp] theorem State.loadRegs_report (x : RegIdx) (a : Nat) : (s.loadRegs x a).report = s.report := rfl
@[simp] theorem State.loadRegs_font (x : RegIdx) (a : Nat) : (s.loadRegs x a).font = s.font := rfl
@[simp] theorem State.loadRegs_keymap (x : RegIdx) (a : Nat) : (s.loadRegs x a).keymap = s.keymap := rfl
@[simp] theorem State.loadRegs_keys (x : RegIdx) (a : Nat) : (s.loadRegs x a).keys = s.keys := rfl
@[simp] theorem State.loadRegs_tick (x : RegIdx) (a : Nat) : (s.loadRegs x a).tick = s.tick := rfl
@[simp] theorem State.loadRegs_rnd (x : RegIdx) (a : Nat) : (s.loadRegs x a).rnd = s.rnd := rfl
@[simp] theorem State.loadRegs_script (x : RegIdx) (a : Nat) : (s.loadRegs x a).script = s.script := rfl
@[simp] theorem State.loadRegs_draws (x : RegIdx) (a : Nat) : (s.loadRegs x a).draws = s.draws := rfl
@[simp] theorem State.loadRegs_pixel (x : RegIdx) (a : Nat) (i : Fin 32) (j : Fin 64) : (s.loadRegs x a).pixel i j = s.pixel i j := rfl
@[simp] theorem State.loadRegs_byte (x : RegIdx) (a : Nat) (i : Nat) : (s.loadRegs x a).byte i = s.byte i := rfl
@[simp] theorem State.loadRegs_word (x : RegIdx) (a : Nat) (i : Nat) : (s.loadRegs x a).word i = s.word i := rfl

/-! ## advance -/

@[simp] theorem State.advance_v : s.advance.v = s.v := rfl
@[simp] theorem State.advance_index : s.advance.index = s.index := rfl
@[simp] theorem State.advance_pc : s.advance.pc = s.pc + 2 := rfl
@[simp] theorem State.advance_sp : s.advance.sp = s.sp := rfl
@[simp] theorem State.advance_stack : s.advance.stack = s.stack := rfl
@[simp] theorem State.advance_mem : s.advance.mem = s.mem := rfl
@[simp] theorem State.advance_fb : s.advance.fb = s.fb := rfl
@[simp] theorem State.advance_dirty : s.advance.dirty = s.dirty := rfl
@[simp] theorem State.advance_dt : s.advance.dt = s.dt := rfl
@[simp] theorem State.advance_st : s.advance.st = s.st := rfl
@[simp] theorem State.advance_audio : s.advance.audio = s.audio := rfl
@[simp] theorem State.advance_fault : s.advance.fault = s.fault := rfl
@[simp] theorem State.advance_report : s.advance.report = s.report := rfl
@[simp] theorem State.advance_font : s.advance.font = s.font := rfl
@[simp] theorem State.advance_keymap : s.advance.keymap = s.keymap := rfl
@[simp] theorem State.advance_keys : s.advance.keys = s.keys := rfl
@[simp] theorem State.advance_tick : s.advance.tick = s.tick := rfl
@[simp] theorem State.advance_rnd : s.advance.rnd = s.rnd := rfl
@[simp] theorem State.advance_script : s.advance.script = s.script := rfl
@[simp] theorem State.advance_draws : s.advance.draws = s.draws := rfl
@[simp] theorem State.advance_reg (r : RegIdx) : s.advance.reg r = s.reg r := rfl
@[simp] theorem State.advance_pixel (i : Fin 32) (j : Fin 64) : s.advance.pixel i j = s.pixel i j := rfl
@[simp] theorem State.advance_byte (i : Nat) : s.advance.byte i = s.byte i := rfl
@[simp] theorem State.advance_word (i : Nat) : s.advance.word i = s.word i := rfl

/-! ## skipIf -/

@[simp] theorem State.skipIf_v (c : Bool) : (s.skipIf c).v = s.v := rfl
@[simp] theorem State.skipIf_index (c : Bool) : (s.skipIf c).index = s.index := rfl
@[simp] theorem State.skipIf_pc (c : Bool) : (s.skipIf c).pc = (if c then s.pc + 4 else s.pc + 2) := rfl
@[simp] theorem State.skipIf_sp (c : Bool) : (s.skipIf c).sp = s.sp := rfl
@[simp] theorem State.skipIf_stack (c : Bool) : (s.skipIf c).stack = s.stack := rfl
@[simp] theorem State.skipIf_mem (c : Bool) : (s.skipIf c).mem = s.mem := rfl
@[simp] theorem State.skipIf_fb (c : Bool) : (s.skipIf c).fb = s.fb := rfl
@[simp] theorem State.skipIf_dirty (c : Bool) : (s.skipIf c).dirty = s.dirty := rfl
@[simp] theorem State.skipIf_dt (c : Bool) : (s.skipIf c).dt = s.dt := rfl
@[simp] theorem State.skipIf_st (c : Bool) : (s.skipIf c).st = s.st := rfl
@[simp] theorem State.skipIf_audio (c : Bool) : (s.skipIf c).audio = s.audio := rfl
@[simp] theorem State.skipIf_fault (c : Bool) : (s.skipIf c).fault = s.fault := rfl
@[simp] theorem State.skipIf_report (c : Bool) : (s.skipIf c).report = s.report := rfl
@[simp] theorem State.skipIf_font (c : Bool) : (s.skipIf c).font = s.font := rfl
@[simp] theorem State.skipIf_keymap (c : Bool) : (s.skipIf c).keymap = s.keymap := rfl
@[simp] theorem State.skipIf_keys (c : Bool) : (s.skipIf c).keys = s.keys := rfl
@[simp] theorem State.skipIf_tick (c : Bool) : (s.skipIf c).tick = s.tick := rfl
@[simp] theorem State.skipIf_rnd (c : Bool) : (s.skipIf c).rnd = s.rnd := rfl
@[simp] theorem State.skipIf_script (c : Bool) : (s.skipIf c).script = s.script := rfl
@[simp] theorem State.skipIf_draws (c : Bool) : (s.skipIf c).draws = s.draws := rfl
@[simp] theorem State.skipIf_reg (c : Bool) (r : RegIdx) : (s.skipIf c).reg r = s.reg r := rfl
@[simp] theorem State.skipIf_pixel (c : Bool) (i : Fin 32) (j : Fin 64) : (s.skipIf c).pixel i j = s.pixel i j := rfl
@[simp] theorem State.skipIf_byte (c : Bool) (i : Nat) : (s.skipIf c).byte i = s.byte i := rfl
@[simp] theorem State.skipIf_word (c : Bool) (i : Nat) : (s.skipIf c).word i = s.word i := rfl

/-! ## jumpTo -/

@[simp] theorem State.jumpTo_v (a : Word) : (s.jumpTo a).v = s.v := rfl
@[simp] theorem State.jumpTo_index (a : Word) : (s.jumpTo a).index = s.index := rfl
@[simp] theorem State.jumpTo_pc (a : Word) : (s.jumpTo a).pc = a := rfl
@[simp] theorem State.jumpTo_sp (a : Word) : (s.jumpTo a).sp = s.sp := rfl
@[simp] theorem State.jumpTo_stack (a : Word) : (s.jumpTo a).stack = s.stack := rfl
@[simp] theorem State.jumpTo_mem (a : Word) : (s.jumpTo a).mem = s.mem := rfl
@[simp] theorem State.jumpTo_fb (a : Word) : (s.jumpTo a).fb = s.fb := rfl
@[simp] theorem State.jumpTo_dirty (a : Word) : (s.jumpTo a).dirty = s.dirty := rfl
@[simp] theorem State.jumpTo_dt (a : Word) : (s.jumpTo a).dt = s.dt := rfl
@[simp] theorem State.jumpTo_st (a : Word) : (s.jumpTo a).st = s.st := rfl
@[simp] theorem State.jumpTo_audio (a : Word) : (s.jumpTo a).audio = s.audio := rfl
@[simp] theorem State.jumpTo_fault (a : Word) : (s.jumpTo a).fault = s.fault := rfl
@[simp] theorem State.jumpTo_report (a : Word) : (s.jumpTo a).report = s.report := rfl
@[simp] theorem State.jumpTo_font (a : Word) : (s.jumpTo a).font = s.font := rfl
@[simp] theorem State.jumpTo_keymap (a : Word) : (s.jumpTo a).keymap = s.keymap := rfl
@[simp] theorem State.jumpTo_keys (a : Word) : (s.jumpTo a).keys = s.keys := rfl
@[simp] theorem State.jumpTo_tick (a : Word) : (s.jumpTo a).tick = s.tick := rfl
@[simp] theorem State.jumpTo_rnd (a : Word) : (s.jumpTo a).rnd = s.rnd := rfl
@[simp] theorem State.jumpTo_script (a : Word) : (s.jumpTo a).script = s.script := rfl
@[simp] theorem State.jumpTo_draws (a : Word) : (s.jumpTo a).draws = s.draws := rfl
@[simp] theorem State.jumpTo_reg (a : Word) (r : RegIdx) : (s.jumpTo a).reg r = s.reg r := rfl
@[simp] theorem State.jumpTo_pixel (a : Word) (i : Fin 32) (j : Fin 64) : (s.jumpTo a).pixel i j = s.pixel i j := rfl
@[simp] theorem State.jumpTo_byte (a : Word) (i : Nat) : (s.jumpTo a).byte i = s.byte i := rfl
@[simp] theorem State.jumpTo_word (a : Word) (i : Nat) : (s.jumpTo a).word i = s.word i := rfl

/-! ## raise -/

@[simp] theorem State.raise_v (c : FaultCause) (info : Word) : (s.raise c info).v = s.v := rfl
@[simp] theorem State.raise_index (c : FaultCause) (info : Word) : (s.raise c info).index = s.index := rfl
@[simp] theorem State.raise_pc (c : FaultCause) (info : Word) : (s.raise c info).pc = s.pc := rfl
@[simp] theorem State.raise_sp (c : FaultCause) (info : Word) : (s.raise c info).sp = s.sp := rfl
@[simp] theorem State.raise_stack (c : FaultCause) (info : Word) : (s.raise c info).stack = s.stack := rfl
@[simp] theorem State.raise_mem (c : FaultCause) (info : Word) : (s.raise c info).mem = s.mem := rfl
@[simp] theorem State.raise_fb (c : FaultCause) (info : Word) : (s.raise c info).fb = s.fb := rfl
@[simp] theorem State.raise_dirty (c : FaultCause) (info : Word) : (s.raise c info).dirty = s.dirty := rfl
@[simp] theorem State.raise_dt (c : FaultCause) (info : Word) : (s.raise c info).dt = s.dt := rfl
@[simp] theorem State.raise_st (c : FaultCause) (info : Word) : (s.raise c info).st = s.st := rfl
@[simp] theorem State.raise_audio (c : FaultCause) (info : Word) : (s.raise c info).audio = s.audio := rfl
@[simp] theorem State.raise_fault (c : FaultCause) (info : Word) : (s.raise c info).fault = ⟨c, s.pc, info⟩ := rfl
@[simp] theorem State.raise_report (c : FaultCause) (info : Word) : (s.raise c info).report = s.report := rfl
@[simp] theorem State.raise_font (c : FaultCause) (info : Word) : (s.raise c info).font = s.font := rfl
@[simp] theorem State.raise_keymap (c : FaultCause) (info : Word) : (s.raise c info).keymap = s.keymap := rfl
@[simp] theorem State.raise_keys (c : FaultCause) (info : Word) : (s.raise c info).keys = s.keys := rfl
@[simp] theorem State.raise_tick (c : FaultCause) (info : Word) : (s.raise c info).tick = s.tick := rfl
@[simp] theorem State.raise_rnd (c : FaultCause) (info : Word) : (s.raise c info).rnd = s.rnd := rfl
@[simp] theorem State.raise_script (c : FaultCause) (info : Word) : (s.raise c info).script = s.script := rfl
@[simp] theorem State.raise_draws (c : FaultCause) (info : Word) : (s.raise c info).draws = s.draws := rfl
@[simp] theorem State.raise_reg (c : FaultCause) (info : Word) (r : RegIdx) : (s.raise c info).reg r = s.reg r := rfl
@[simp] theorem State.raise_pixel (c : FaultCause) (info : Word) (i : Fin 32) (j : Fin 64) : (s.raise c info).pixel i j = s.pixel i j := rfl
@[simp] theorem State.raise_byte (c : FaultCause) (info : Word) (i : Nat) : (s.raise c info).byte i = s.byte i := rfl
@[simp] theorem State.raise_word (c : FaultCause) (info : Word) (i : Nat) : (s.raise c info).word i = s.word i := rfl

/-! ## clearReport -/

@[simp] theorem State.clearReport_v : s.clearReport.v = s.v := rfl
@[simp] theorem State.clearReport_index : s.clearReport.index = s.index := rfl
@[simp] theorem State.clearReport_pc : s.clearReport.pc = s.pc := rfl
@[simp] theorem State.clearReport_sp : s.clearReport.sp = s.sp := rfl
@[simp] theorem State.clearReport_stack : s.clearReport.stack = s.stack := rfl
@[simp] theorem State.clearReport_mem : s.clearReport.mem = s.mem := rfl
@[simp] theorem State.clearReport_fb : s.clearReport.fb = s.fb := rfl
@[simp] theorem State.clearReport_dirty : s.clearReport.dirty = s.dirty := rfl
@[simp] theorem State.clearReport_dt : s.clearReport.dt = s.dt := rfl
@[simp] theorem State.clearReport_st : s.clearReport.st = s.st := rfl
@[simp] theorem State.clearReport_audio : s.clearReport.audio = s.audio := rfl
@[simp] theorem State.clearReport_fault : s.clearReport.fault = s.fault := rfl
@[simp] theorem State.clearReport_report : s.clearReport.report = ⟨false, 0, 0, false⟩ := rfl
@[simp] theorem State.clearReport_font : s.clearReport.font = s.font := rfl
@[simp] theorem State.clearReport_keymap : s.clearReport.keymap = s.keymap := rfl
@[simp] theorem State.clearReport_keys : s.clearReport.keys = s.keys := rfl
@[simp] theorem State.clearReport_tick : s.clearReport.tick = s.tick := rfl
@[simp] theorem State.clearReport_rnd : s.clearReport.rnd = s.rnd := rfl
@[simp] theorem State.clearReport_script : s.clearReport.script = s.script := rfl
@[simp] theorem State.clearReport_draws : s.clearReport.draws = s.draws := rfl
@[simp] theorem State.clearReport_reg (r : RegIdx) : s.clearReport.reg r = s.reg r := rfl
@[simp] theorem State.clearReport_pixel (i : Fin 32) (j : Fin 64) : s.clearReport.pixel i j = s.pixel i j := rfl
@[simp] theorem State.clearReport_byte (i : Nat) : s.clearReport.byte i = s.byte i := rfl
@[simp] theorem State.clearReport_word (i : Nat) : s.clearReport.word i = s.word i := rfl

/-! ## timerService -/

@[simp] theorem State.timerService_v : s.timerService.v = s.v := rfl
@[simp] theorem State.timerService_index : s.timerService.index = s.index := rfl
@[simp] theorem State.timerService_pc : s.timerService.pc = s.pc := rfl
@[simp] theorem State.timerService_sp : s.timerService.sp = s.sp := rfl
@[simp] theorem State.timerService_stack : s.timerService.stack = s.stack := rfl
@[simp] theorem State.timerService_mem : s.timerService.mem = s.mem := rfl
@[simp] theorem State.timerService_fb : s.timerService.fb = s.fb := rfl
@[simp] theorem State.timerService_dirty : s.timerService.dirty = s.dirty := rfl
@[simp] theorem State.timerService_dt : s.timerService.dt = (if s.tick then countDown s.dt else s.dt) := rfl
@[simp] theorem State.timerService_st : s.timerService.st = (if s.tick then countDown s.st else s.st) := rfl
@[simp] theorem State.timerService_audio : s.timerService.audio = (if s.tick then decide (countDown s.st ≠ 0) else s.audio) := rfl
@[simp] theorem State.timerService_fault : s.timerService.fault = s.fault := rfl
@[simp] theorem State.timerService_report : s.timerService.report = s.report := rfl
@[simp] theorem State.timerService_font : s.timerService.font = s.font := rfl
@[simp] theorem State.timerService_keymap : s.timerService.keymap = s.keymap := rfl
@[simp] theorem State.timerService_keys : s.timerService.keys = s.keys := rfl
@[simp] theorem State.timerService_tick : s.timerService.tick = s.tick := rfl
@[simp] theorem State.timerService_rnd : s.timerService.rnd = s.rnd := rfl
@[simp] theorem State.timerService_script : s.timerService.script = s.script := rfl
@[simp] theorem State.timerService_draws : s.timerService.draws = s.draws := rfl
@[simp] theorem State.timerService_reg (r : RegIdx) : s.timerService.reg r = s.reg r := rfl
@[simp] theorem State.timerService_pixel (i : Fin 32) (j : Fin 64) : s.timerService.pixel i j = s.pixel i j := rfl
@[simp] theorem State.timerService_byte (i : Nat) : s.timerService.byte i = s.byte i := rfl
@[simp] theorem State.timerService_word (i : Nat) : s.timerService.word i = s.word i := rfl

/-! ## beginStep -/

@[simp] theorem State.beginStep_v : s.beginStep.v = s.v := rfl
@[simp] theorem State.beginStep_index : s.beginStep.index = s.index := rfl
@[simp] theorem State.beginStep_pc : s.beginStep.pc = s.pc := rfl
@[simp] theorem State.beginStep_sp : s.beginStep.sp = s.sp := rfl
@[simp] theorem State.beginStep_stack : s.beginStep.stack = s.stack := rfl
@[simp] theorem State.beginStep_mem : s.beginStep.mem = s.mem := rfl
@[simp] theorem State.beginStep_fb : s.beginStep.fb = s.fb := rfl
@[simp] theorem State.beginStep_dirty : s.beginStep.dirty = s.dirty := rfl
@[simp] theorem State.beginStep_dt : s.beginStep.dt = (if s.tick then countDown s.dt else s.dt) := rfl
@[simp] theorem State.beginStep_st : s.beginStep.st = (if s.tick then countDown s.st else s.st) := rfl
@[simp] theorem State.beginStep_audio : s.beginStep.audio = (if s.tick then decide (countDown s.st ≠ 0) else s.audio) := rfl
@[simp] theorem State.beginStep_fault : s.beginStep.fault = s.fault := rfl
@[simp] theorem State.beginStep_report : s.beginStep.report = ⟨false, 0, 0, false⟩ := rfl
@[simp] theorem State.beginStep_font : s.beginStep.font = s.font := rfl
@[simp] theorem State.beginStep_keymap : s.beginStep.keymap = s.keymap := rfl
@[simp] theorem State.beginStep_keys : s.beginStep.keys = s.keys := rfl
@[simp] theorem State.beginStep_tick : s.beginStep.tick = s.tick := rfl
@[simp] theorem State.beginStep_rnd : s.beginStep.rnd = s.rnd := rfl
@[simp] theorem State.beginStep_script : s.beginStep.script = s.script := rfl
@[simp] theorem State.beginStep_draws : s.beginStep.draws = s.draws := rfl
@[simp] theorem State.beginStep_reg (r : RegIdx) : s.beginStep.reg r = s.reg r := rfl
@[simp] theorem State.beginStep_pixel (i : Fin 32) (j : Fin 64) : s.beginStep.pixel i j = s.pixel i j := rfl
@[simp] theorem State.beginStep_byte (i : Nat) : s.beginStep.byte i = s.byte i := rfl
@[simp] theorem State.beginStep_word (i : Nat) : s.beginStep.word i = s.word i := rfl

/-! ## holdForKey -/

@[simp] theorem State.holdForKey_v : s.holdForKey.v = s.v := rfl
@[simp] theorem State.holdForKey_index : s.holdForKey.index = s.index := rfl
@[simp] theorem State.holdForKey_pc : s.holdForKey.pc = s.pc := rfl
@[simp] theorem State.holdForKey_sp : s.holdForKey.sp = s.sp := rfl
@[simp] theorem State.holdForKey_stack : s.holdForKey.stack = s.stack := rfl
@[simp] theorem State.holdForKey_mem : s.holdForKey.mem = s.mem := rfl
@[simp] theorem State.holdForKey_fb : s.holdForKey.fb = s.fb := rfl
@[simp] theorem State.holdForKey_dirty : s.holdForKey.dirty = s.dirty := rfl
@[simp] theorem State.holdForKey_dt : s.holdForKey.dt = s.dt := rfl
@[simp] theorem State.holdForKey_st : s.holdForKey.st = s.st := rfl
@[simp] theorem State.holdForKey_audio : s.holdForKey.audio = s.audio := rfl
@[simp] theorem State.holdForKey_fault : s.holdForKey.fault = s.fault := rfl
@[simp] theorem State.holdForKey_report : s.holdForKey.report = { s.report with keywait := true } := rfl
@[simp] theorem State.holdForKey_font : s.holdForKey.font = s.font := rfl
@[simp] theorem State.holdForKey_keymap : s.holdForKey.keymap = s.keymap := rfl
@[simp] theorem State.holdForKey_keys : s.holdForKey.keys = s.keys := rfl
@[simp] theorem State.holdForKey_tick : s.holdForKey.tick = s.tick := rfl
@[simp] theorem State.holdForKey_rnd : s.holdForKey.rnd = s.rnd := rfl
@[simp] theorem State.holdForKey_script : s.holdForKey.script = s.script := rfl
@[simp] theorem State.holdForKey_draws : s.holdForKey.draws = s.draws := rfl
@[simp] theorem State.holdForKey_reg (r : RegIdx) : s.holdForKey.reg r = s.reg r := rfl
@[simp] theorem State.holdForKey_pixel (i : Fin 32) (j : Fin 64) : s.holdForKey.pixel i j = s.pixel i j := rfl
@[simp] theorem State.holdForKey_byte (i : Nat) : s.holdForKey.byte i = s.byte i := rfl
@[simp] theorem State.holdForKey_word (i : Nat) : s.holdForKey.word i = s.word i := rfl

/-! ## dirtyClear -/

@[simp] theorem State.dirtyClear_v : s.dirtyClear.v = s.v := rfl
@[simp] theorem State.dirtyClear_index : s.dirtyClear.index = s.index := rfl
@[simp] theorem State.dirtyClear_pc : s.dirtyClear.pc = s.pc := rfl
@[simp] theorem State.dirtyClear_sp : s.dirtyClear.sp = s.sp := rfl
@[simp] theorem State.dirtyClear_stack : s.dirtyClear.stack = s.stack := rfl
@[simp] theorem State.dirtyClear_mem : s.dirtyClear.mem = s.mem := rfl
@[simp] theorem State.dirtyClear_fb : s.dirtyClear.fb = s.fb := rfl
@[simp] theorem State.dirtyClear_dirty : s.dirtyClear.dirty = false := rfl
@[simp] theorem State.dirtyClear_dt : s.dirtyClear.dt = s.dt := rfl
@[simp] theorem State.dirtyClear_st : s.dirtyClear.st = s.st := rfl
@[simp] theorem State.dirtyClear_audio : s.dirtyClear.audio = s.audio := rfl
@[simp] theorem State.dirtyClear_fault : s.dirtyClear.fault = s.fault := rfl
@[simp] theorem State.dirtyClear_report : s.dirtyClear.report = s.report := rfl
@[simp] theorem State.dirtyClear_font : s.dirtyClear.font = s.font := rfl
@[simp] theorem State.dirtyClear_keymap : s.dirtyClear.keymap = s.keymap := rfl
@[simp] theorem State.dirtyClear_keys : s.dirtyClear.keys = s.keys := rfl
@[simp] theorem State.dirtyClear_tick : s.dirtyClear.tick = s.tick := rfl
@[simp] theorem State.dirtyClear_rnd : s.dirtyClear.rnd = s.rnd := rfl
@[simp] theorem State.dirtyClear_script : s.dirtyClear.script = s.script := rfl
@[simp] theorem State.dirtyClear_draws : s.dirtyClear.draws = s.draws := rfl
@[simp] theorem State.dirtyClear_reg (r : RegIdx) : s.dirtyClear.reg r = s.reg r := rfl
@[simp] theorem State.dirtyClear_pixel (i : Fin 32) (j : Fin 64) : s.dirtyClear.pixel i j = s.pixel i j := rfl
@[simp] theorem State.dirtyClear_byte (i : Nat) : s.dirtyClear.byte i = s.byte i := rfl
@[simp] theorem State.dirtyClear_word (i : Nat) : s.dirtyClear.word i = s.word i := rfl

/-! ## accept -/

@[simp] theorem State.accept_v (h : HostTurn) : (s.accept h).v = s.v := rfl
@[simp] theorem State.accept_index (h : HostTurn) : (s.accept h).index = s.index := rfl
@[simp] theorem State.accept_pc (h : HostTurn) : (s.accept h).pc = s.pc := rfl
@[simp] theorem State.accept_sp (h : HostTurn) : (s.accept h).sp = s.sp := rfl
@[simp] theorem State.accept_stack (h : HostTurn) : (s.accept h).stack = s.stack := rfl
@[simp] theorem State.accept_mem (h : HostTurn) : (s.accept h).mem = s.mem := rfl
@[simp] theorem State.accept_fb (h : HostTurn) : (s.accept h).fb = s.fb := rfl
@[simp] theorem State.accept_dirty (h : HostTurn) : (s.accept h).dirty = (s.dirty && !h.dirtyClear) := rfl
@[simp] theorem State.accept_dt (h : HostTurn) : (s.accept h).dt = s.dt := rfl
@[simp] theorem State.accept_st (h : HostTurn) : (s.accept h).st = s.st := rfl
@[simp] theorem State.accept_audio (h : HostTurn) : (s.accept h).audio = s.audio := rfl
@[simp] theorem State.accept_fault (h : HostTurn) : (s.accept h).fault = s.fault := rfl
@[simp] theorem State.accept_report (h : HostTurn) : (s.accept h).report = s.report := rfl
@[simp] theorem State.accept_font (h : HostTurn) : (s.accept h).font = s.font := rfl
@[simp] theorem State.accept_keymap (h : HostTurn) : (s.accept h).keymap = s.keymap := rfl
@[simp] theorem State.accept_keys (h : HostTurn) : (s.accept h).keys = h.keys := rfl
@[simp] theorem State.accept_tick (h : HostTurn) : (s.accept h).tick = h.tick := rfl
@[simp] theorem State.accept_rnd (h : HostTurn) : (s.accept h).rnd = h.rnd := rfl
@[simp] theorem State.accept_script (h : HostTurn) : (s.accept h).script = s.script := rfl
@[simp] theorem State.accept_draws (h : HostTurn) : (s.accept h).draws = s.draws := rfl
@[simp] theorem State.accept_reg (h : HostTurn) (r : RegIdx) : (s.accept h).reg r = s.reg r := rfl
@[simp] theorem State.accept_pixel (h : HostTurn) (i : Fin 32) (j : Fin 64) : (s.accept h).pixel i j = s.pixel i j := rfl
@[simp] theorem State.accept_byte (h : HostTurn) (i : Nat) : (s.accept h).byte i = s.byte i := rfl
@[simp] theorem State.accept_word (h : HostTurn) (i : Nat) : (s.accept h).word i = s.word i := rfl

/-! ## store -/

@[simp] theorem State.store_v (a : Nat) (bs : List Byte) : (s.store a bs).v = s.v := rfl
@[simp] theorem State.store_index (a : Nat) (bs : List Byte) : (s.store a bs).index = s.index := rfl
@[simp] theorem State.store_pc (a : Nat) (bs : List Byte) : (s.store a bs).pc = s.pc := rfl
@[simp] theorem State.store_sp (a : Nat) (bs : List Byte) : (s.store a bs).sp = s.sp := rfl
@[simp] theorem State.store_stack (a : Nat) (bs : List Byte) : (s.store a bs).stack = s.stack := rfl
@[simp] theorem State.store_mem (a : Nat) (bs : List Byte) : (s.store a bs).mem = s.mem.writeBytes s.font a bs := rfl
@[simp] theorem State.store_fb (a : Nat) (bs : List Byte) : (s.store a bs).fb = s.fb := rfl
@[simp] theorem State.store_dirty (a : Nat) (bs : List Byte) : (s.store a bs).dirty = s.dirty := rfl
@[simp] theorem State.store_dt (a : Nat) (bs : List Byte) : (s.store a bs).dt = s.dt := rfl
@[simp] theorem State.store_st (a : Nat) (bs : List Byte) : (s.store a bs).st = s.st := rfl
@[simp] theorem State.store_audio (a : Nat) (bs : List Byte) : (s.store a bs).audio = s.audio := rfl
@[simp] theorem State.store_fault (a : Nat) (bs : List Byte) : (s.store a bs).fault = s.fault := rfl
@[simp] theorem State.store_report (a : Nat) (bs : List Byte) : (s.store a bs).report = s.report := rfl
@[simp] theorem State.store_font (a : Nat) (bs : List Byte) : (s.store a bs).font = s.font := rfl
@[simp] theorem State.store_keymap (a : Nat) (bs : List Byte) : (s.store a bs).keymap = s.keymap := rfl
@[simp] theorem State.store_keys (a : Nat) (bs : List Byte) : (s.store a bs).keys = s.keys := rfl
@[simp] theorem State.store_tick (a : Nat) (bs : List Byte) : (s.store a bs).tick = s.tick := rfl
@[simp] theorem State.store_rnd (a : Nat) (bs : List Byte) : (s.store a bs).rnd = s.rnd := rfl
@[simp] theorem State.store_script (a : Nat) (bs : List Byte) : (s.store a bs).script = s.script := rfl
@[simp] theorem State.store_draws (a : Nat) (bs : List Byte) : (s.store a bs).draws = s.draws := rfl
@[simp] theorem State.store_reg (a : Nat) (bs : List Byte) (r : RegIdx) : (s.store a bs).reg r = s.reg r := rfl
@[simp] theorem State.store_pixel (a : Nat) (bs : List Byte) (i : Fin 32) (j : Fin 64) : (s.store a bs).pixel i j = s.pixel i j := rfl

/-! ## placeWord -/

@[simp] theorem State.placeWord_v (w : Word) : (s.placeWord w).v = s.v := rfl
@[simp] theorem State.placeWord_index (w : Word) : (s.placeWord w).index = s.index := rfl
@[simp] theorem State.placeWord_pc (w : Word) : (s.placeWord w).pc = s.pc := rfl
@[simp] theorem State.placeWord_sp (w : Word) : (s.placeWord w).sp = s.sp := rfl
@[simp] theorem State.placeWord_stack (w : Word) : (s.placeWord w).stack = s.stack := rfl
@[simp] theorem State.placeWord_mem (w : Word) : (s.placeWord w).mem = (if checkRange s.pc 2 then (s.store s.pc.toNat (bytesOf w)).mem else s.mem) := rfl
@[simp] theorem State.placeWord_fb (w : Word) : (s.placeWord w).fb = s.fb := rfl
@[simp] theorem State.placeWord_dirty (w : Word) : (s.placeWord w).dirty = s.dirty := rfl
@[simp] theorem State.placeWord_dt (w : Word) : (s.placeWord w).dt = s.dt := rfl
@[simp] theorem State.placeWord_st (w : Word) : (s.placeWord w).st = s.st := rfl
@[simp] theorem State.placeWord_audio (w : Word) : (s.placeWord w).audio = s.audio := rfl
@[simp] theorem State.placeWord_fault (w : Word) : (s.placeWord w).fault = s.fault := rfl
@[simp] theorem State.placeWord_report (w : Word) : (s.placeWord w).report = s.report := rfl
@[simp] theorem State.placeWord_font (w : Word) : (s.placeWord w).font = s.font := rfl
@[simp] theorem State.placeWord_keymap (w : Word) : (s.placeWord w).keymap = s.keymap := rfl
@[simp] theorem State.placeWord_keys (w : Word) : (s.placeWord w).keys = s.keys := rfl
@[simp] theorem State.placeWord_tick (w : Word) : (s.placeWord w).tick = s.tick := rfl
@[simp] theorem State.placeWord_rnd (w : Word) : (s.placeWord w).rnd = s.rnd := rfl
@[simp] theorem State.placeWord_script (w : Word) : (s.placeWord w).script = s.script := rfl
@[simp] theorem State.placeWord_draws (w : Word) : (s.placeWord w).draws = s.draws := rfl
@[simp] theorem State.placeWord_reg (w : Word) (r : RegIdx) : (s.placeWord w).reg r = s.reg r := rfl
@[simp] theorem State.placeWord_pixel (w : Word) (i : Fin 32) (j : Fin 64) : (s.placeWord w).pixel i j = s.pixel i j := rfl

/-! ## afterDraw -/

@[simp] theorem State.afterDraw_index (x y : RegIdx) (n : Nibble) : (s.afterDraw x y n).index = s.index := rfl
@[simp] theorem State.afterDraw_pc (x y : RegIdx) (n : Nibble) : (s.afterDraw x y n).pc = s.pc := rfl
@[simp] theorem State.afterDraw_sp (x y : RegIdx) (n : Nibble) : (s.afterDraw x y n).sp = s.sp := rfl
@[simp] theorem State.afterDraw_stack (x y : RegIdx) (n : Nibble) : (s.afterDraw x y n).stack = s.stack := rfl
@[simp] theorem State.afterDraw_mem (x y : RegIdx) (n : Nibble) : (s.afterDraw x y n).mem = s.mem := rfl
@[simp] theorem State.afterDraw_dt (x y : RegIdx) (n : Nibble) : (s.afterDraw x y n).dt = s.dt := rfl
@[simp] theorem State.afterDraw_st (x y : RegIdx) (n : Nibble) : (s.afterDraw x y n).st = s.st := rfl
@[simp] theorem State.afterDraw_audio (x y : RegIdx) (n : Nibble) : (s.afterDraw x y n).audio = s.audio := rfl
@[simp] theorem State.afterDraw_fault (x y : RegIdx) (n : Nibble) : (s.afterDraw x y n).fault = s.fault := rfl
@[simp] theorem State.afterDraw_report (x y : RegIdx) (n : Nibble) : (s.afterDraw x y n).report = s.report := rfl
@[simp] theorem State.afterDraw_font (x y : RegIdx) (n : Nibble) : (s.afterDraw x y n).font = s.font := rfl
@[simp] theorem State.afterDraw_keymap (x y : RegIdx) (n : Nibble) : (s.afterDraw x y n).keymap = s.keymap := rfl
@[simp] theorem State.afterDraw_keys (x y : RegIdx) (n : Nibble) : (s.afterDraw x y n).keys = s.keys := rfl
@[simp] theorem State.afterDraw_tick (x y : RegIdx) (n : Nibble) : (s.afterDraw x y n).tick = s.tick := rfl
@[simp] theorem State.afterDraw_rnd (x y : RegIdx) (n : Nibble) : (s.afterDraw x y n).rnd = s.rnd := rfl
@[simp] theorem State.afterDraw_script (x y : RegIdx) (n : Nibble) : (s.afterDraw x y n).script = s.script := rfl
@[simp] theorem State.afterDraw_draws (x y : RegIdx) (n : Nibble) : (s.afterDraw x y n).draws = s.draws := rfl
@[simp] theorem State.afterDraw_byte (x y : RegIdx) (n : Nibble) (i : Nat) : (s.afterDraw x y n).byte i = s.byte i := rfl
@[simp] theorem State.afterDraw_word (x y : RegIdx) (n : Nibble) (i : Nat) : (s.afterDraw x y n).word i = s.word i := rfl

end Sys2Proof.Machine
end

