-- ==== Sys2Proof/Laws/Registers.lean ====
section
/-! SUPPORT. Reading a register after writing one. -/

namespace Sys2Proof.Machine

theorem State.reg_setReg (s : State) (x r : RegIdx) (b : Byte) :
    (s.setReg x b).reg r = if r = x then b else s.reg r := by
  unfold State.reg State.setReg
  by_cases h : r = x
  · subst h; simp
  · have : x.toNat ≠ r.toNat := fun e => h (BitVec.eq_of_toNat_eq e.symm)
    simp [this, h]

@[simp] theorem State.reg_setReg_same (s : State) (x : RegIdx) (b : Byte) : (s.setReg x b).reg x = b := by
  simp [State.reg_setReg]

theorem State.reg_setReg_ne (s : State) {x r : RegIdx} (b : Byte) (h : r ≠ x) :
    (s.setReg x b).reg r = s.reg r := by
  simp [State.reg_setReg, h]

theorem State.reg_setFlag (s : State) (c : Bool) (r : RegIdx) :
    (s.setFlag c).reg r = if r = 15 then (if c then 1 else 0) else s.reg r := by
  simp [State.setFlag, State.reg_setReg]

/-- The law of 42_load_alu R161, read back: the flag wins over the result in `V[15]`. -/
theorem State.reg_setResultAndFlag (s : State) (x r : RegIdx) (b : Byte) (c : Bool) :
    (s.setResultAndFlag x b c).reg r =
      if r = 15 then (if c then 1 else 0) else if r = x then b else s.reg r := by
  simp [State.setResultAndFlag, State.reg_setFlag, State.reg_setReg]

/-- A property of all sixteen register indices. -/
theorem forall_regIdx {p : RegIdx → Prop} (h : ∀ k : Fin 16, p (BitVec.ofFin k)) (r : RegIdx) : p r := h r.toFin

/-- register-load, read back (R185). -/
theorem State.reg_loadRegs (s : State) (x : RegIdx) (a : Nat) (r : RegIdx) :
    (s.loadRegs x a).reg r = s.loadedReg x a r := by
  revert r
  apply forall_regIdx
  intro k
  fin_cases k <;> rfl

@[simp] theorem State.setReg_self (s : State) (x : RegIdx) : s.setReg x (s.reg x) = s := by
  simp [State.setReg, State.reg]

/-- The bytes of a register dump (R184): `X + 1` of them, register `k` in place `k`. -/
theorem State.length_regsUpTo (s : State) (x : RegIdx) : (s.regsUpTo x).length = x.toNat + 1 := by
  have := x.isLt
  simp [State.regsUpTo]; omega

theorem State.getElem_regsUpTo (s : State) (x : RegIdx) (k : RegIdx) (h : k.toNat ≤ x.toNat) :
    (s.regsUpTo x)[k.toNat]'(by rw [s.length_regsUpTo]; omega) = s.reg k := by
  simp [State.regsUpTo, State.reg]

end Sys2Proof.Machine
end

