-- ==== Sys2Proof/Laws/Ops.lean ====
section
/-! SUPPORT. For each shared operation, one lemma that says everything it can do. -/

namespace Sys2Proof.Machine

/-! ## Call stack -/

/-- A push on a full stack gives nothing (R29). -/
theorem State.push_full (s : State) (a : Word) (h : s.sp = 16) : s.push a = none := by
  simp [State.push, h]

/-- A push with room writes `STACK[SP]`, then adds 1 to `SP` (R29). -/
theorem State.push_room (s : State) (a : Word) (h : s.sp.val < 16) :
    s.push a = some { s with stack := s.stack.set s.sp.val a h, sp := ⟨s.sp.val + 1, by omega⟩ } := by
  simp [State.push, h]

/-- `SP` is at most 16, so a stack with no room is full. -/
theorem State.sp_lt_of_ne (s : State) (h : s.sp ≠ 16) : s.sp.val < 16 := by
  have := s.sp.isLt
  have : s.sp.val ≠ 16 := fun e => h (Fin.ext e)
  omega

/-- A pop of the empty stack gives nothing (R29). -/
theorem State.pop_empty (s : State) (h : s.sp = 0) : s.pop = none := by
  simp [State.pop, h]

/-- A pop takes 1 from `SP`, then reads `STACK[SP]`; the entry keeps its value (R29). -/
theorem State.pop_some (s : State) (h : s.sp.val ≠ 0) :
    s.pop = some (s.stack[s.sp.val - 1]'(by omega), { s with sp := ⟨s.sp.val - 1, by omega⟩ }) := by
  simp [State.pop, h]

/-! ## Checked access -/

/-- An access is done whole, or `DataBounds(I)` is raised and nothing is done (R61). -/
theorem State.access_ok {s : State} {n : Nat} (h : checkRange s.index n = true) (d : State) :
    s.access n d = d := by simp [State.access, h]

theorem State.access_fault {s : State} {n : Nat} (h : checkRange s.index n = false) (d : State) :
    s.access n d = s.raise .dataBounds s.index := by simp [State.access, h]

/-! ## Reading and storing bytes -/

/-- A byte is read from the listed memory and the font only. -/
theorem State.byte_congr {s t : State} (hm : t.mem = s.mem) (hf : t.font = s.font) (a : Nat) :
    t.byte a = s.byte a := by simp only [State.byte, hm, hf]

/-- A word is read from the listed memory and the font only. -/
theorem State.word_congr {s t : State} (hm : t.mem = s.mem) (hf : t.font = s.font) (a : Nat) :
    t.word a = s.word a := by simp only [State.word, State.byte, hm, hf]

/-- Outside the stored bytes every address reads as before, in any memory (20_memory R67). -/
theorem State.byte_store_outside (s : State) (a : Nat) (bs : List Byte) {c : Nat}
    (h : c < a ∨ a + bs.length ≤ c) : (s.store a bs).byte c = s.byte c :=
  Memory.read_writeBytes_outside s.mem a bs h

/-- Inside the stored bytes each address reads as its byte, in a canonical memory (20_memory R67). -/
theorem State.byte_store_inside {s : State} (hm : s.mem.wf s.font = true) (a : Nat) (bs : List Byte) {k : Nat}
    (h : k < bs.length) : (s.store a bs).byte (a + k) = bs[k] :=
  Memory.read_writeBytes_inside hm a bs h

/-- A store keeps the canonical form. -/
theorem State.wf_store {s : State} (hm : s.mem.wf s.font = true) (a : Nat) (bs : List Byte) :
    (s.store a bs).mem.wf (s.store a bs).font = true := Memory.wf_writeBytes hm a bs

/-! ## Fetch -/

theorem State.fetch_bounds {s : State} (h : 0x0FFE < s.pc.toNat) :
    s.fetch = .error (.fetchBounds, s.pc) := by
  have : checkRange s.pc 2 = false := (checkRange_false_iff _ _).2 (by omega)
  simp [State.fetch, this]

theorem State.fetch_misaligned {s : State} (h : s.pc.toNat ≤ 0x0FFE) (ho : s.pc.toNat % 2 = 1) :
    s.fetch = .error (.misalignedFetch, s.pc) := by
  have : checkRange s.pc 2 = true := (checkRange_iff _ _).2 (by omega)
  simp [State.fetch, this, ho]

theorem State.fetch_ok {s : State} (h : s.pc.toNat ≤ 0x0FFE) (he : s.pc.toNat % 2 = 0) :
    s.fetch = .ok (s.word s.pc.toNat) := by
  have : checkRange s.pc 2 = true := (checkRange_iff _ _).2 (by omega)
  simp [State.fetch, this, he]

/-- Everything a fetch can do (R122). -/
theorem State.fetch_cases (s : State) :
    (0x0FFE < s.pc.toNat ∧ s.fetch = .error (.fetchBounds, s.pc)) ∨
    (s.pc.toNat ≤ 0x0FFE ∧ s.pc.toNat % 2 = 1 ∧ s.fetch = .error (.misalignedFetch, s.pc)) ∨
    (s.pc.toNat ≤ 0x0FFE ∧ s.pc.toNat % 2 = 0 ∧ s.fetch = .ok (s.word s.pc.toNat)) := by
  rcases Nat.lt_or_ge 0x0FFE s.pc.toNat with h | h
  · exact .inl ⟨h, State.fetch_bounds h⟩
  · rcases Nat.mod_two_eq_zero_or_one s.pc.toNat with he | ho
    · exact .inr (.inr ⟨h, he, State.fetch_ok h he⟩)
    · exact .inr (.inl ⟨h, ho, State.fetch_misaligned h ho⟩)

/-! ## Keys -/

theorem mem_allKeys (k : KeyIdx) : k ∈ allKeys := by
  revert k; exact forall_regIdx (by decide)

theorem State.firstPressed_none_iff (s : State) : s.firstPressed = none ↔ ∀ k, s.pressed k = false := by
  simp only [State.firstPressed, List.find?_eq_none, Bool.not_eq_true]
  exact ⟨fun h k => h k (mem_allKeys k), fun h k _ => h k⟩

/-- The keys of `allKeys` before a key are exactly the lower ones. -/
theorem allKeys_split (k : KeyIdx) :
    ∃ l r, allKeys = l ++ k :: r ∧ ∀ j : KeyIdx, j ∈ l ↔ j.toNat < k.toNat := by
  refine ⟨allKeys.take k.toNat, allKeys.drop (k.toNat + 1), ?_, ?_⟩
  · revert k; exact forall_regIdx (by decide)
  · revert k; refine forall_regIdx ?_
    intro k j; revert j; refine forall_regIdx ?_
    revert k; decide

/-- The scan finds the lowest pressed virtual key (R222). -/
theorem State.firstPressed_some_of {s : State} {k : KeyIdx} (h : s.pressed k = true)
    (hl : ∀ j : KeyIdx, j.toNat < k.toNat → s.pressed j = false) : s.firstPressed = some k := by
  obtain ⟨l, r, e, hm⟩ := allKeys_split k
  unfold State.firstPressed
  rw [e, List.find?_append, List.find?_eq_none.2 (by
    intro j hj; simp [hl j ((hm j).1 hj)])]
  simp [h]

/-! ## Timers -/

theorem toNat_countDown (t : Byte) : (countDown t).toNat = t.toNat - 1 := by
  unfold countDown
  split
  · next h => subst h; rfl
  · next h =>
    have h1 : t.toNat ≠ 0 := fun e => h (BitVec.eq_of_toNat_eq (by simpa using e))
    have h2 := t.isLt
    have h3 : (1 : Byte).toNat = 1 := rfl
    rw [BitVec.toNat_sub]
    omega

/-! ## The host's turn -/

/-- Everything the host's turn can do: some turn is accepted, and only the model's own fields move besides. -/
theorem State.hostTurn_cases (s : State) :
    ∃ h l n, s.hostTurn = { s with script := l, draws := n }.accept h := by
  cases e : s.script with
  | nil => exact ⟨freeTurn s.draws, [], s.draws + 1, by simp [State.hostTurn, e]⟩
  | cons h l => exact ⟨h, l, s.draws, by simp [State.hostTurn, e]⟩

theorem State.hostTurn_script (s : State) {h : HostTurn} {l : List HostTurn} (e : s.script = h :: l) :
    s.hostTurn = { s with script := l }.accept h := by
  simp [State.hostTurn, e]

section HostTurnFrame

variable (s : State)

@[simp] theorem State.hostTurn_v : s.hostTurn.v = s.v := by unfold State.hostTurn; split <;> rfl
@[simp] theorem State.hostTurn_index : s.hostTurn.index = s.index := by unfold State.hostTurn; split <;> rfl
@[simp] theorem State.hostTurn_pc : s.hostTurn.pc = s.pc := by unfold State.hostTurn; split <;> rfl
@[simp] theorem State.hostTurn_sp : s.hostTurn.sp = s.sp := by unfold State.hostTurn; split <;> rfl
@[simp] theorem State.hostTurn_stack : s.hostTurn.stack = s.stack := by unfold State.hostTurn; split <;> rfl
@[simp] theorem State.hostTurn_mem : s.hostTurn.mem = s.mem := by unfold State.hostTurn; split <;> rfl
@[simp] theorem State.hostTurn_fb : s.hostTurn.fb = s.fb := by unfold State.hostTurn; split <;> rfl
@[simp] theorem State.hostTurn_dt : s.hostTurn.dt = s.dt := by unfold State.hostTurn; split <;> rfl
@[simp] theorem State.hostTurn_st : s.hostTurn.st = s.st := by unfold State.hostTurn; split <;> rfl
@[simp] theorem State.hostTurn_audio : s.hostTurn.audio = s.audio := by unfold State.hostTurn; split <;> rfl
@[simp] theorem State.hostTurn_fault : s.hostTurn.fault = s.fault := by unfold State.hostTurn; split <;> rfl
@[simp] theorem State.hostTurn_report : s.hostTurn.report = s.report := by unfold State.hostTurn; split <;> rfl
@[simp] theorem State.hostTurn_font : s.hostTurn.font = s.font := by unfold State.hostTurn; split <;> rfl
@[simp] theorem State.hostTurn_keymap : s.hostTurn.keymap = s.keymap := by unfold State.hostTurn; split <;> rfl
@[simp] theorem State.hostTurn_reg (r : RegIdx) : s.hostTurn.reg r = s.reg r := by
  unfold State.hostTurn; split <;> rfl
@[simp] theorem State.hostTurn_pixel (y : Fin 32) (x : Fin 64) : s.hostTurn.pixel y x = s.pixel y x := by
  unfold State.hostTurn; split <;> rfl

@[simp] theorem State.hostTurn_byte (a : Nat) : s.hostTurn.byte a = s.byte a := by
  unfold State.hostTurn; split <;> rfl
@[simp] theorem State.hostTurn_word (a : Nat) : s.hostTurn.word a = s.word a := by
  unfold State.hostTurn; split <;> rfl

/-- The host's turn can clear `DIRTY`, never set it (R42). -/
theorem State.dirty_of_hostTurn_dirty (h : s.hostTurn.dirty = true) : s.dirty = true := by
  obtain ⟨t, l, n, e⟩ := s.hostTurn_cases
  rw [e] at h; simp at h; exact h.1

end HostTurnFrame

/-! ## The step -/

theorem State.halted_iff (s : State) : s.halted = true ↔ s.fault.cause ≠ .noFault := by simp [State.halted]

theorem engineStep_halted {s : State} (h : s.fault.cause ≠ .noFault) : engineStep s = .next s := by
  simp [engineStep, State.halted, h]

theorem engineStep_running {s : State} (h : s.fault.cause = .noFault) :
    engineStep s = fetchAndExec s.beginStep := by simp [engineStep, State.halted, h]

theorem fetchAndExec_bounds {s : State} (h : 0x0FFE < s.pc.toNat) :
    fetchAndExec s = .next (s.raise .fetchBounds s.pc) := by simp [fetchAndExec, State.fetch_bounds h]

theorem fetchAndExec_misaligned {s : State} (h : s.pc.toNat ≤ 0x0FFE) (ho : s.pc.toNat % 2 = 1) :
    fetchAndExec s = .next (s.raise .misalignedFetch s.pc) := by
  simp [fetchAndExec, State.fetch_misaligned h ho]

theorem fetchAndExec_ok {s : State} (h : s.pc.toNat ≤ 0x0FFE) (he : s.pc.toNat % 2 = 0) :
    fetchAndExec s = exec (decode (s.word s.pc.toNat)) s := by simp [fetchAndExec, State.fetch_ok h he]

/-- Everything a step can do: the host's turn, then nothing when halted, a fetch fault, or the instruction. -/
theorem step_cases (s : State) :
    (s.fault.cause ≠ .noFault ∧ step s = .next s.hostTurn) ∨
    (s.fault.cause = .noFault ∧ 0x0FFE < s.pc.toNat ∧
      step s = .next (s.hostTurn.beginStep.raise .fetchBounds s.pc)) ∨
    (s.fault.cause = .noFault ∧ s.pc.toNat ≤ 0x0FFE ∧ s.pc.toNat % 2 = 1 ∧
      step s = .next (s.hostTurn.beginStep.raise .misalignedFetch s.pc)) ∨
    (s.fault.cause = .noFault ∧ s.pc.toNat ≤ 0x0FFE ∧ s.pc.toNat % 2 = 0 ∧
      step s = exec (decode (s.word s.pc.toNat)) s.hostTurn.beginStep) := by
  by_cases hf : s.fault.cause = .noFault
  · have hr : step s = fetchAndExec s.hostTurn.beginStep := engineStep_running (by simpa using hf)
    rcases Nat.lt_or_ge 0x0FFE s.pc.toNat with h | h
    · exact .inr (.inl ⟨hf, h, by rw [hr, fetchAndExec_bounds (by simpa using h)]; simp⟩)
    · rcases Nat.mod_two_eq_zero_or_one s.pc.toNat with he | ho
      · refine .inr (.inr (.inr ⟨hf, h, he, ?_⟩))
        rw [hr, fetchAndExec_ok (by simpa using h) (by simpa using he)]; simp
      · refine .inr (.inr (.inl ⟨hf, h, ho, ?_⟩))
        rw [hr, fetchAndExec_misaligned (by simpa using h) (by simpa using ho)]; simp
  · exact .inl ⟨hf, engineStep_halted (by simpa using hf)⟩

end Sys2Proof.Machine
end

