-- ==== Sys2Proof/Laws/Display.lean ====
section
/-! SUPPORT. The laws of the framebuffer and of a draw: what flipping one pixel does, that one draw never addresses
a pixel twice (44_display R202), and what a draw over distinct pixels leaves (R201, R204). -/

namespace Sys2Proof.Machine

theorem Frame.get_flip (f : Frame) (y y' : Fin 32) (x x' : Fin 64) :
    Frame.get (Frame.flip f y x) y' x' = (Frame.get f y' x' ^^ decide ((y', x') = (y, x))) := by
  unfold Frame.get Frame.flip
  by_cases hy : y' = y
  · subst hy
    by_cases hx : x' = x
    · subst hx; simp [Frame.get]
    · have : x.val ≠ x'.val := fun e => hx (Fin.ext e.symm)
      simp [this, hx]
  · have : y.val ≠ y'.val := fun e => hy (Fin.ext e.symm)
    simp [this, hy]

theorem Frame.get_blank (y : Fin 32) (x : Fin 64) : Frame.get Frame.blank y x = false := by
  simp [Frame.get, Frame.blank]

/-- Two framebuffers with the same pixels are equal data. -/
theorem Frame.ext_get {f g : Frame} (h : ∀ y x, Frame.get f y x = Frame.get g y x) : f = g := by
  apply Vector.ext; intro i hi
  apply Vector.ext; intro j hj
  exact h ⟨i, hi⟩ ⟨j, hj⟩

/-- A draw over distinct pixels: each of them is toggled, and a collision is one that was set before. -/
theorem foldl_plot (ps : List (Fin 32 × Fin 64)) (d : Drawing) (hn : ps.Nodup) :
    (∀ y x, Frame.get (ps.foldl Drawing.plot d).frame y x = (Frame.get d.frame y x ^^ decide ((y, x) ∈ ps))) ∧
    (ps.foldl Drawing.plot d).collision = (d.collision || ps.any fun p => Frame.get d.frame p.1 p.2) ∧
    (ps.foldl Drawing.plot d).toggled = (d.toggled || !ps.isEmpty) := by
  induction ps generalizing d with
  | nil => simp
  | cons p ps ih =>
    obtain ⟨hp, hn⟩ := List.nodup_cons.1 hn
    obtain ⟨h1, h2, h3⟩ := ih (d.plot p) hn
    refine ⟨fun y x => ?_, ?_, ?_⟩
    · rw [List.foldl_cons, h1]
      simp only [Drawing.plot, Frame.get_flip, List.mem_cons]
      by_cases hm : (y, x) = p
      · subst hm; simp [hp]
      · have : ¬ (y, x) = (p.1, p.2) := hm
        simp [hm]
    · rw [List.foldl_cons, h2]
      simp only [Drawing.plot, List.any_cons, Bool.or_assoc]
      congr 2
      rw [Bool.eq_iff_iff, List.any_eq_true, List.any_eq_true]
      refine exists_congr fun q => and_congr_right fun hq => ?_
      have hne : (q.1, q.2) ≠ (p.1, p.2) := fun e => hp ((show q = p from e) ▸ hq)
      simp [Frame.get_flip, hne]
    · rw [List.foldl_cons, h3]; simp [Drawing.plot]

theorem drawPixels_spec (f : Frame) (ps : List (Fin 32 × Fin 64)) (hn : ps.Nodup) :
    (∀ y x, Frame.get (drawPixels f ps).frame y x = (Frame.get f y x ^^ decide ((y, x) ∈ ps))) ∧
    (drawPixels f ps).collision = (ps.any fun p => Frame.get f p.1 p.2) ∧
    (drawPixels f ps).toggled = !ps.isEmpty := by
  have := foldl_plot ps ⟨f, false, false⟩ hn
  simpa [drawPixels] using this

theorem mem_rowPixels (b vx : Byte) (y : Fin 32) (p : Fin 32 × Fin 64) :
    p ∈ rowPixels b vx y ↔ ∃ c < 8, spriteBit b c = true ∧ p = (y, spriteCol vx c) := by
  simp only [rowPixels, List.mem_filterMap, List.mem_range]
  refine exists_congr fun c => and_congr_right fun _ => ?_
  cases spriteBit b c <;> simp [eq_comm]

theorem mem_spritePixels (s : State) (x y : RegIdx) (n : Nat) (p : Fin 32 × Fin 64) :
    p ∈ s.spritePixels x y n ↔ ∃ r < n, ∃ c < 8,
      spriteBit (s.byte (s.effAddr r)) c = true ∧ p = (spriteRow (s.reg y) r, spriteCol (s.reg x) c) := by
  simp only [State.spritePixels, List.mem_flatMap, List.mem_range, mem_rowPixels]

theorem spriteCol_inj {vx : Byte} {c c' : Nat} (h : c < 64) (h' : c' < 64)
    (e : spriteCol vx c = spriteCol vx c') : c = c' := by
  have := congrArg Fin.val e; simp only [spriteCol] at this; omega

theorem spriteRow_inj {vy : Byte} {r r' : Nat} (h : r < 32) (h' : r' < 32)
    (e : spriteRow vy r = spriteRow vy r') : r = r' := by
  have := congrArg Fin.val e; simp only [spriteRow] at this; omega

theorem nodup_rowPixels (b vx : Byte) (y : Fin 32) : (rowPixels b vx y).Nodup := by
  unfold rowPixels List.Nodup
  rw [List.pairwise_filterMap]
  refine List.Pairwise.imp_of_mem ?_ List.nodup_range
  intro c c' hc hc' hne p hp p' hp' e
  simp only [List.mem_range] at hc hc'
  have h1 : p = (y, spriteCol vx c) := by cases hb : spriteBit b c <;> simp_all
  have h2 : p' = (y, spriteCol vx c') := by cases hb : spriteBit b c' <;> simp_all
  exact hne (spriteCol_inj (by omega) (by omega) (congrArg Prod.snd (h1.symm.trans (e.trans h2))))

/-- One draw never addresses the same pixel twice (44_display R202). -/
theorem nodup_spritePixels (s : State) (x y : RegIdx) {n : Nat} (hn : n ≤ 32) :
    (s.spritePixels x y n).Nodup := by
  unfold State.spritePixels
  rw [List.nodup_flatMap]
  refine ⟨fun r _ => nodup_rowPixels _ _ _, ?_⟩
  refine List.Pairwise.imp_of_mem ?_ (List.nodup_range (n := n))
  intro r r' hr hr' hne p hp hp'
  simp only [List.mem_range] at hr hr'
  obtain ⟨c, _, _, e⟩ := (mem_rowPixels _ _ _ _).1 hp
  obtain ⟨c', _, _, e'⟩ := (mem_rowPixels _ _ _ _).1 hp'
  exact hne (spriteRow_inj (vy := s.reg y) (by omega) (by omega) (congrArg Prod.fst (e.symm.trans e')))

end Sys2Proof.Machine
end

