-- ==== Sys2Proof/Laws/Encoding.lean ====
section
/-! SUPPORT. The fields of an encoded word: each field of 30_encoding R91 and each layout of R92 as a number, and
the layouts read back through the fields. -/

namespace Sys2Proof

/-! ## Fields and layouts as numbers -/

theorem toNat_opOf (w : Word) : (opOf w).toNat = w.toNat / 4096 % 16 := by
  simp [opOf, Nat.shiftRight_eq_div_pow]
theorem toNat_xOf (w : Word) : (xOf w).toNat = w.toNat / 256 % 16 := by
  simp [xOf, Nat.shiftRight_eq_div_pow]
theorem toNat_yOf (w : Word) : (yOf w).toNat = w.toNat / 16 % 16 := by
  simp [yOf, Nat.shiftRight_eq_div_pow]
theorem toNat_nOf (w : Word) : (nOf w).toNat = w.toNat % 16 := by
  simp [nOf]
theorem toNat_nnOf (w : Word) : (nnOf w).toNat = w.toNat % 256 := by
  simp [nnOf]
theorem toNat_nnnOf (w : Word) : (nnnOf w).toNat = w.toNat % 4096 := by
  simp [nnnOf]

theorem toNat_append_eq {a b : Nat} (x : BitVec a) (y : BitVec b) :
    (x ++ y).toNat = x.toNat * 2 ^ b + y.toNat := by
  rw [BitVec.toNat_append, ← Nat.shiftLeft_add_eq_or_of_lt y.isLt, Nat.shiftLeft_eq]

theorem toNat_layNnn (op : Nibble) (nnn : Addr) : (layNnn op nnn).toNat = op.toNat * 4096 + nnn.toNat :=
  toNat_append_eq op nnn
theorem toNat_layXnn (op : Nibble) (x : RegIdx) (nn : Byte) :
    (layXnn op x nn).toNat = (op.toNat * 16 + x.toNat) * 256 + nn.toNat := by
  have h : (layXnn op x nn).toNat = (op ++ x).toNat * 2 ^ 8 + nn.toNat := toNat_append_eq (op ++ x) nn
  rw [h, toNat_append_eq]; norm_num
theorem toNat_layXyn (op : Nibble) (x y : RegIdx) (n : Nibble) :
    (layXyn op x y n).toNat = ((op.toNat * 16 + x.toNat) * 16 + y.toNat) * 16 + n.toNat := by
  have h : (layXyn op x y n).toNat = (op ++ x ++ y).toNat * 2 ^ 4 + n.toNat := toNat_append_eq (op ++ x ++ y) n
  rw [h, toNat_append_eq, toNat_append_eq]; norm_num
theorem toNat_layXsub (op : Nibble) (x : RegIdx) (sub : Byte) :
    (layXsub op x sub).toNat = (op.toNat * 16 + x.toNat) * 256 + sub.toNat := toNat_layXnn op x sub

theorem toNat_wordOf (hi lo : Byte) : (wordOf hi lo).toNat = hi.toNat * 256 + lo.toNat :=
  toNat_append_eq hi lo
theorem toNat_hiByte (w : Word) : (hiByte w).toNat = w.toNat / 256 % 256 := by
  simp [hiByte, Nat.shiftRight_eq_div_pow]
theorem toNat_loByte (w : Word) : (loByte w).toNat = w.toNat % 256 := by
  simp [loByte]

/-- The two bytes of a word give the word back (20_memory R62). -/
@[simp] theorem wordOf_bytes (w : Word) : wordOf (hiByte w) (loByte w) = w := by
  apply BitVec.eq_of_toNat_eq
  rw [toNat_wordOf, toNat_hiByte, toNat_loByte]
  have := w.isLt; omega

@[simp] theorem hiByte_wordOf (hi lo : Byte) : hiByte (wordOf hi lo) = hi := by
  apply BitVec.eq_of_toNat_eq
  rw [toNat_hiByte, toNat_wordOf]
  have := hi.isLt; have := lo.isLt; omega

@[simp] theorem loByte_wordOf (hi lo : Byte) : loByte (wordOf hi lo) = lo := by
  apply BitVec.eq_of_toNat_eq
  rw [toNat_loByte, toNat_wordOf]
  have := hi.isLt; have := lo.isLt; omega

/-! ## Layouts read back through the fields -/

section
variable (op : Nibble) (x y : RegIdx) (n : Nibble) (nn : Byte) (nnn : Addr)

@[simp] theorem opOf_layNnn : opOf (layNnn op nnn) = op := by
  apply BitVec.eq_of_toNat_eq; rw [toNat_opOf, toNat_layNnn]
  have := op.isLt; have := nnn.isLt; omega
@[simp] theorem nnnOf_layNnn : nnnOf (layNnn op nnn) = nnn := by
  apply BitVec.eq_of_toNat_eq; rw [toNat_nnnOf, toNat_layNnn]
  have := op.isLt; have := nnn.isLt; omega
@[simp] theorem opOf_layXnn : opOf (layXnn op x nn) = op := by
  apply BitVec.eq_of_toNat_eq; rw [toNat_opOf, toNat_layXnn]
  have := op.isLt; have := x.isLt; have := nn.isLt; omega
@[simp] theorem xOf_layXnn : xOf (layXnn op x nn) = x := by
  apply BitVec.eq_of_toNat_eq; rw [toNat_xOf, toNat_layXnn]
  have := op.isLt; have := x.isLt; have := nn.isLt; omega
@[simp] theorem nnOf_layXnn : nnOf (layXnn op x nn) = nn := by
  apply BitVec.eq_of_toNat_eq; rw [toNat_nnOf, toNat_layXnn]
  have := op.isLt; have := x.isLt; have := nn.isLt; omega
@[simp] theorem opOf_layXyn : opOf (layXyn op x y n) = op := by
  apply BitVec.eq_of_toNat_eq; rw [toNat_opOf, toNat_layXyn]
  have := op.isLt; have := x.isLt; have := y.isLt; have := n.isLt; omega
@[simp] theorem xOf_layXyn : xOf (layXyn op x y n) = x := by
  apply BitVec.eq_of_toNat_eq; rw [toNat_xOf, toNat_layXyn]
  have := op.isLt; have := x.isLt; have := y.isLt; have := n.isLt; omega
@[simp] theorem yOf_layXyn : yOf (layXyn op x y n) = y := by
  apply BitVec.eq_of_toNat_eq; rw [toNat_yOf, toNat_layXyn]
  have := op.isLt; have := x.isLt; have := y.isLt; have := n.isLt; omega
@[simp] theorem nOf_layXyn : nOf (layXyn op x y n) = n := by
  apply BitVec.eq_of_toNat_eq; rw [toNat_nOf, toNat_layXyn]
  have := op.isLt; have := x.isLt; have := y.isLt; have := n.isLt; omega
@[simp] theorem opOf_layXsub : opOf (layXsub op x nn) = op := opOf_layXnn op x nn
@[simp] theorem xOf_layXsub : xOf (layXsub op x nn) = x := xOf_layXnn op x nn
@[simp] theorem nnOf_layXsub : nnOf (layXsub op x nn) = nn := nnOf_layXnn op x nn
end

/-- A word is its layout's fields put back together. -/
theorem layNnn_fields (w : Word) : layNnn (opOf w) (nnnOf w) = w := by
  apply BitVec.eq_of_toNat_eq
  rw [toNat_layNnn, toNat_opOf, toNat_nnnOf]; have := w.isLt; omega
theorem layXnn_fields (w : Word) : layXnn (opOf w) (xOf w) (nnOf w) = w := by
  apply BitVec.eq_of_toNat_eq
  rw [toNat_layXnn, toNat_opOf, toNat_xOf, toNat_nnOf]; have := w.isLt; omega
theorem layXyn_fields (w : Word) : layXyn (opOf w) (xOf w) (yOf w) (nOf w) = w := by
  apply BitVec.eq_of_toNat_eq
  rw [toNat_layXyn, toNat_opOf, toNat_xOf, toNat_yOf, toNat_nOf]; have := w.isLt; omega

/-! ## The three kinds of mask of R96 -/

theorem getLsbD_layNnn (op : Nibble) (nnn : Addr) (i : Nat) :
    (layNnn op nnn).getLsbD i = if i < 12 then nnn.getLsbD i else op.getLsbD (i - 12) :=
  BitVec.getLsbD_append
theorem getLsbD_layXnn (op : Nibble) (x : RegIdx) (nn : Byte) (i : Nat) :
    (layXnn op x nn).getLsbD i = if i < 8 then nn.getLsbD i else (op ++ x).getLsbD (i - 8) :=
  BitVec.getLsbD_append
theorem getLsbD_layXyn (op : Nibble) (x y : RegIdx) (n : Nibble) (i : Nat) :
    (layXyn op x y n).getLsbD i = if i < 4 then n.getLsbD i else (op ++ x ++ y).getLsbD (i - 4) :=
  BitVec.getLsbD_append

/-- Mask 0xF000 keeps `op`. -/
theorem and_mask_op (w : Word) : w &&& 0xF000 = layNnn (opOf w) 0 := by
  apply BitVec.eq_of_getLsbD_eq; intro i hi
  rw [getLsbD_layNnn, opOf]
  interval_cases i <;> simp

/-- Mask 0xF0FF keeps `op` and `NN`. -/
theorem and_mask_op_nn (w : Word) : w &&& 0xF0FF = layXnn (opOf w) 0 (nnOf w) := by
  apply BitVec.eq_of_getLsbD_eq; intro i hi
  rw [getLsbD_layXnn, opOf, nnOf, BitVec.getLsbD_append]
  interval_cases i <;> simp

/-- Mask 0xF00F keeps `op` and `N`. -/
theorem and_mask_op_n (w : Word) : w &&& 0xF00F = layXyn (opOf w) 0 0 (nOf w) := by
  apply BitVec.eq_of_getLsbD_eq; intro i hi
  rw [getLsbD_layXyn, opOf, nOf, BitVec.getLsbD_append, BitVec.getLsbD_append]
  interval_cases i <;> simp

end Sys2Proof
end

