-- ==== Sys2Proof/Laws/Frames.lean ====
section
/-! SUPPORT. Which frame of Safety.lean each shared operation keeps, and the operand forms as numbers. -/

namespace Sys2Proof.Machine

open Sys2Proof.Safety

/-! ## Operand forms as numbers -/

theorem toNat_zextAddr (nnn : Addr) : (zextAddr nnn).toNat = nnn.toNat := by
  have := nnn.isLt
  rw [zextAddr, BitVec.toNat_setWidth]; omega

theorem toNat_zextByte (b : Byte) : (zextByte b).toNat = b.toNat := by
  have := b.isLt
  rw [zextByte, BitVec.toNat_setWidth]; omega

theorem zextAddr_eq_ofNat (nnn : Addr) : zextAddr nnn = BitVec.ofNat 16 nnn.toNat := by
  have := nnn.isLt
  apply BitVec.eq_of_toNat_eq; rw [toNat_zextAddr, BitVec.toNat_ofNat]; omega

theorem zextByte_eq_ofNat (b : Byte) : zextByte b = BitVec.ofNat 16 b.toNat := by
  have := b.isLt
  apply BitVec.eq_of_toNat_eq; rw [toNat_zextByte, BitVec.toNat_ofNat]; omega

theorem keyOf_eq_ofNat (b : Byte) : keyOf b = BitVec.ofNat 4 b.toNat := by
  apply BitVec.eq_of_toNat_eq; rw [keyOf, BitVec.toNat_setWidth, BitVec.toNat_ofNat]

/-- The precondition of a launch as a proposition (70_reset R291). -/
theorem launchOk_iff (image : List Byte) : launchOk image = true ↔ image.length ≤ 3584 := by
  simp [launchOk]

/-! ## Frames -/

variable (s : State)

theorem sameStack_refl : SameStack s s := ⟨rfl, rfl⟩
theorem sameTimers_refl : SameTimers s s := ⟨rfl, rfl, rfl⟩
theorem sameHostSide_refl : SameHostSide s s := ⟨rfl, rfl, rfl, rfl, rfl, rfl, rfl⟩

theorem sameRest_refl : SameRest s s :=
  ⟨sameStack_refl s, fun _ _ => rfl, rfl, sameTimers_refl s, rfl, rfl, sameHostSide_refl s⟩

theorem onlyRegs_setReg (x : RegIdx) (b : Byte) : OnlyRegs [x] s (s.setReg x b).advance := by
  refine ⟨fun r hr => ?_, rfl, fun _ => rfl, sameRest_refl s⟩
  rw [State.advance_reg, State.reg_setReg_ne _ _ (by simpa using hr)]

theorem onlyRegs_setResultAndFlag (x : RegIdx) (b : Byte) (c : Bool) :
    OnlyRegs [x, 15] s (s.setResultAndFlag x b c).advance := by
  refine ⟨fun r hr => ?_, rfl, fun _ => rfl, sameRest_refl s⟩
  simp only [List.mem_cons, List.not_mem_nil, or_false, not_or] at hr
  rw [State.advance_reg, State.reg_setResultAndFlag, if_neg hr.2, if_neg hr.1]

theorem onlyRegs_skipIf (c : Bool) : OnlyRegs [] s (s.skipIf c) :=
  ⟨fun _ _ => rfl, rfl, fun _ => rfl, sameRest_refl s⟩

theorem onlyRegs_jumpTo (a : Word) : OnlyRegs [] s (s.jumpTo a) :=
  ⟨fun _ _ => rfl, rfl, fun _ => rfl, sameRest_refl s⟩

theorem onlyStore_store (a : Nat) (bs : List Byte) : OnlyStore a bs.length s (s.store a bs).advance :=
  ⟨fun _ _ => rfl, rfl, fun _ h => s.byte_store_outside a bs h, sameRest_refl s⟩

theorem sameEngine_refl : SameEngine s s :=
  ⟨fun _ _ => rfl, rfl, rfl, sameStack_refl s, fun _ => rfl, fun _ _ => rfl, sameTimers_refl s, rfl, rfl, id⟩

/-- The host's turn changes no engine state but `DIRTY` (10_state R42, 70_reset R297). -/
theorem sameEngine_hostTurn : SameEngine s s.hostTurn :=
  ⟨fun r _ => s.hostTurn_reg r, s.hostTurn_index, s.hostTurn_pc, ⟨s.hostTurn_sp, s.hostTurn_stack⟩,
    fun a => s.hostTurn_byte a, fun y x => s.hostTurn_pixel y x,
    ⟨s.hostTurn_dt, s.hostTurn_st, s.hostTurn_audio⟩, s.hostTurn_fault, s.hostTurn_keymap,
    s.dirty_of_hostTurn_dirty⟩

/-- What an access can do, with the two sides of the check (R61). -/
theorem State.access_cases (n : Nat) (d : State) :
    (checkRange s.index n = true ∧ s.access n d = d) ∨
    (checkRange s.index n = false ∧ s.access n d = s.raise .dataBounds s.index) := by
  cases h : checkRange s.index n
  · exact .inr ⟨rfl, State.access_fault h d⟩
  · exact .inl ⟨rfl, State.access_ok h d⟩

/-- The table of faults reads the registers, `I` and `SP` only (60_exceptions R250). -/
theorem faultOf_congr (i : Instr) {s t : State} (hv : t.v = s.v) (hi : t.index = s.index) (hs : t.sp = s.sp) :
    faultOf i t = faultOf i s := by
  have hr : ∀ x, t.reg x = s.reg x := fun x => by simp only [State.reg, hv]
  cases i <;> simp only [faultOf, SpanOutside, hr, hi, hs]

/-- The span of an instruction lies outside memory exactly when its range check fails (20_memory R61). -/
theorem spanOutside_iff (i : Instr) : SpanOutside i s ↔ checkRange s.index (Instr.span i) = false :=
  (checkRange_false_iff _ _).symm

/-! ## A draw -/

/-- The pixels a draw reaches are the addressed ones (44_display R201 to R203). -/
theorem addressed_iff (vx vy : RegIdx) (n : Nibble) (y : Fin 32) (x : Fin 64) :
    Addressed s vx vy n y x ↔ (y, x) ∈ s.spritePixels vx vy n.toNat := by
  rw [mem_spritePixels]
  constructor
  · rintro ⟨r, c, hr, hc, hy, hx, hb⟩
    exact ⟨r, hr, c, hc, hb, Prod.ext (Fin.ext hy) (Fin.ext hx)⟩
  · rintro ⟨r, hr, c, hc, hb, e⟩
    exact ⟨r, c, hr, hc, congrArg (fun p => p.1.val) e, congrArg (fun p => p.2.val) e, hb⟩

/-- Everything `afterDraw` leaves: the pixels, `VF`, `DIRTY` and the other registers, over the list of pixels reached. -/
theorem State.afterDraw_spec (x y : RegIdx) (n : Nibble) :
    (∀ py px, (s.afterDraw x y n).pixel py px =
      (s.pixel py px ^^ decide ((py, px) ∈ s.spritePixels x y n.toNat))) ∧
    ((s.afterDraw x y n).reg 15 =
      if ∃ p ∈ s.spritePixels x y n.toNat, s.pixel p.1 p.2 = true then 1 else 0) ∧
    ((s.afterDraw x y n).dirty = (s.dirty || !(s.spritePixels x y n.toNat).isEmpty)) ∧
    (∀ r, r ≠ 15 → (s.afterDraw x y n).reg r = s.reg r) := by
  have hn := n.isLt
  obtain ⟨h1, h2, h3⟩ := drawPixels_spec s.fb _ (nodup_spritePixels s x y (n := n.toNat) (by omega))
  refine ⟨h1, ?_, ?_, fun r hr => ?_⟩
  · show (s.setFlag _).reg 15 = _
    rw [State.reg_setFlag, if_pos rfl, h2]
    congr 1
    simp [List.any_eq_true, State.pixel]
  · show (s.dirty || _) = _
    rw [h3]
  · show (s.setFlag _).reg r = _
    rw [State.reg_setFlag, if_neg hr]

/-- One step before, any number after. -/
theorem core_run_succ (n : Nat) (t : State) (h : step s = .next t) :
    Host.Core.run Sys2Proof.core (n + 1) s = Host.Core.run Sys2Proof.core n t := by
  have h' : Sys2Proof.core.step s = Host.Outcome.next t := h
  simp only [Host.Core.run, h']

end Sys2Proof.Machine
end

