-- ==== Sys2Proof/Laws/PerInstr.lean ====
section
/-! SUPPORT. The family OpcodeRow: the word of every well-formed instruction selects that instruction's own row of the
opcode map (30_encoding R96: "a word w selects the row when w & mask = match"), one lemma per constructor. -/

namespace Sys2Proof.Laws.OpcodeRow

/-- The encoded word selects the instruction's row of R96. -/
def Statement (i : Instr) : Prop := i.wellFormed = true → rowMatches (encode i) (maskOf i, matchOf i) = true

theorem of_mask {i : Instr} (h : encode i &&& maskOf i = matchOf i) : Statement i :=
  fun _ => by simp [rowMatches, h]

theorem row_nnn (op : Nibble) (nnn : Addr) : layNnn op nnn &&& 0xF000 = layNnn op 0 := by
  rw [and_mask_op, opOf_layNnn]
theorem row_xnn (op : Nibble) (x : RegIdx) (nn : Byte) : layXnn op x nn &&& 0xF000 = layNnn op 0 := by
  rw [and_mask_op, opOf_layXnn]
theorem row_xyn (op : Nibble) (x y : RegIdx) (n : Nibble) : layXyn op x y n &&& 0xF000 = layNnn op 0 := by
  rw [and_mask_op, opOf_layXyn]
theorem row_xy (op : Nibble) (x y : RegIdx) (n : Nibble) : layXyn op x y n &&& 0xF00F = layXyn op 0 0 n := by
  rw [and_mask_op_n, opOf_layXyn, nOf_layXyn]
theorem row_x (op : Nibble) (x : RegIdx) (sub : Byte) : layXsub op x sub &&& 0xF0FF = layXnn op 0 sub := by
  rw [and_mask_op_nn, opOf_layXsub, nnOf_layXsub]

theorem cls : Statement .cls := fun _ => by decide
theorem ret : Statement .ret := fun _ => by decide
theorem jpNnn (nnn : Addr) : Statement (.jpNnn nnn) := of_mask ((row_nnn 0x1 nnn).trans rfl)
theorem callNnn (nnn : Addr) : Statement (.callNnn nnn) := of_mask ((row_nnn 0x2 nnn).trans rfl)
theorem seVxNn (x : RegIdx) (nn : Byte) : Statement (.seVxNn x nn) := of_mask ((row_xnn 0x3 x nn).trans rfl)
theorem sneVxNn (x : RegIdx) (nn : Byte) : Statement (.sneVxNn x nn) := of_mask ((row_xnn 0x4 x nn).trans rfl)
theorem seVxVy (x y : RegIdx) : Statement (.seVxVy x y) := of_mask ((row_xy 0x5 x y 0x0).trans rfl)
theorem ldVxNn (x : RegIdx) (nn : Byte) : Statement (.ldVxNn x nn) := of_mask ((row_xnn 0x6 x nn).trans rfl)
theorem addVxNn (x : RegIdx) (nn : Byte) : Statement (.addVxNn x nn) := of_mask ((row_xnn 0x7 x nn).trans rfl)
theorem ldVxVy (x y : RegIdx) : Statement (.ldVxVy x y) := of_mask ((row_xy 0x8 x y 0x0).trans rfl)
theorem orVxVy (x y : RegIdx) : Statement (.orVxVy x y) := of_mask ((row_xy 0x8 x y 0x1).trans rfl)
theorem andVxVy (x y : RegIdx) : Statement (.andVxVy x y) := of_mask ((row_xy 0x8 x y 0x2).trans rfl)
theorem xorVxVy (x y : RegIdx) : Statement (.xorVxVy x y) := of_mask ((row_xy 0x8 x y 0x3).trans rfl)
theorem addVxVy (x y : RegIdx) : Statement (.addVxVy x y) := of_mask ((row_xy 0x8 x y 0x4).trans rfl)
theorem subVxVy (x y : RegIdx) : Statement (.subVxVy x y) := of_mask ((row_xy 0x8 x y 0x5).trans rfl)
theorem shrVx (x y : RegIdx) : Statement (.shrVx x y) := of_mask ((row_xy 0x8 x y 0x6).trans rfl)
theorem subnVxVy (x y : RegIdx) : Statement (.subnVxVy x y) := of_mask ((row_xy 0x8 x y 0x7).trans rfl)
theorem shlVx (x y : RegIdx) : Statement (.shlVx x y) := of_mask ((row_xy 0x8 x y 0xE).trans rfl)
theorem sneVxVy (x y : RegIdx) : Statement (.sneVxVy x y) := of_mask ((row_xy 0x9 x y 0x0).trans rfl)
theorem ldINnn (nnn : Addr) : Statement (.ldINnn nnn) := of_mask ((row_nnn 0xA nnn).trans rfl)
theorem jpV0Nnn (nnn : Addr) : Statement (.jpV0Nnn nnn) := of_mask ((row_nnn 0xB nnn).trans rfl)
theorem rndVxNn (x : RegIdx) (nn : Byte) : Statement (.rndVxNn x nn) := of_mask ((row_xnn 0xC x nn).trans rfl)
theorem drwVxVyN (x y : RegIdx) (n : Nibble) : Statement (.drwVxVyN x y n) := of_mask ((row_xyn 0xD x y n).trans rfl)
theorem skpVx (x : RegIdx) : Statement (.skpVx x) := of_mask ((row_x 0xE x 0x9E).trans rfl)
theorem sknpVx (x : RegIdx) : Statement (.sknpVx x) := of_mask ((row_x 0xE x 0xA1).trans rfl)
theorem ldVxDt (x : RegIdx) : Statement (.ldVxDt x) := of_mask ((row_x 0xF x 0x07).trans rfl)
theorem ldVxK (x : RegIdx) : Statement (.ldVxK x) := of_mask ((row_x 0xF x 0x0A).trans rfl)
theorem ldDtVx (x : RegIdx) : Statement (.ldDtVx x) := of_mask ((row_x 0xF x 0x15).trans rfl)
theorem ldStVx (x : RegIdx) : Statement (.ldStVx x) := of_mask ((row_x 0xF x 0x18).trans rfl)
theorem addIVx (x : RegIdx) : Statement (.addIVx x) := of_mask ((row_x 0xF x 0x1E).trans rfl)
theorem ldFVx (x : RegIdx) : Statement (.ldFVx x) := of_mask ((row_x 0xF x 0x29).trans rfl)
theorem ldBVx (x : RegIdx) : Statement (.ldBVx x) := of_mask ((row_x 0xF x 0x33).trans rfl)
theorem ldImemVx (x : RegIdx) : Statement (.ldImemVx x) := of_mask ((row_x 0xF x 0x55).trans rfl)
theorem ldVxImem (x : RegIdx) : Statement (.ldVxImem x) := of_mask ((row_x 0xF x 0x65).trans rfl)
theorem unknown (w : Word) : Statement (.unknown w) := fun _ => by simp [rowMatches, encode, maskOf, matchOf]

end Sys2Proof.Laws.OpcodeRow
end

