-- ==== Sys2Proof/Tests/Slice0.lean ====
section
/-! SUPPORT. The model's own tests: a smoke test of `WellFormed`, a word for every constructor written out from
30_encoding R96, one step per test from the vectors of spec/95_test_vectors.md part B (ids in the comments), and for
every statement with hypotheses a state that meets them. -/

namespace Sys2Proof.Tests

open Sys2Proof.Machine Sys2Proof.Safety

/-! ## Well-formedness: the fallback may carry an unrecognized word only (R98, R100) -/

theorem test_wellFormed_refuses_a_row_of_each_group :
    [0x00E0, 0x00EE, 0x5120, 0x8120, 0x8127, 0x812E, 0x9120, 0xE29E, 0xE2A1, 0xF107, 0xF165, 0x1000, 0xD000].all
      (fun w => !Instr.wellFormed (.unknown w)) = true := by decide

theorem test_wellFormed_accepts_the_unrecognized_words :
    [0x0000, 0x00E1, 0x00EF, 0x00FE, 0x0123, 0x5121, 0x8128, 0x812F, 0x9121, 0xE29F, 0xE1A0, 0xF100, 0xF175,
      0xF185, 0xF1FF].all (fun w => Instr.wellFormed (.unknown w)) = true := by decide

/-! ## Decoding: one word per constructor, written out from the patterns of R96 -/

theorem test_decode_group_0_to_4 :
    decode 0x00E0 = .cls ∧ decode 0x00EE = .ret ∧ decode 0x1ABC = .jpNnn 0xABC ∧ decode 0x2DEF = .callNnn 0xDEF ∧
    decode 0x3A42 = .seVxNn 0xA 0x42 ∧ decode 0x4B17 = .sneVxNn 0xB 0x17 := by decide

theorem test_decode_group_5_to_7_and_9 :
    decode 0x5120 = .seVxVy 0x1 0x2 ∧ decode 0x6C9A = .ldVxNn 0xC 0x9A ∧ decode 0x7D01 = .addVxNn 0xD 0x01 ∧
    decode 0x9AF0 = .sneVxVy 0xA 0xF := by decide

theorem test_decode_group_8 :
    decode 0x8120 = .ldVxVy 0x1 0x2 ∧ decode 0x8341 = .orVxVy 0x3 0x4 ∧ decode 0x8562 = .andVxVy 0x5 0x6 ∧
    decode 0x8783 = .xorVxVy 0x7 0x8 ∧ decode 0x89A4 = .addVxVy 0x9 0xA ∧ decode 0x8BC5 = .subVxVy 0xB 0xC ∧
    decode 0x8DE6 = .shrVx 0xD 0xE ∧ decode 0x8F07 = .subnVxVy 0xF 0x0 ∧ decode 0x812E = .shlVx 0x1 0x2 := by
  decide

theorem test_decode_group_A_to_D :
    decode 0xA2F0 = .ldINnn 0x2F0 ∧ decode 0xB123 = .jpV0Nnn 0x123 ∧ decode 0xC30F = .rndVxNn 0x3 0x0F ∧
    decode 0xD12F = .drwVxVyN 0x1 0x2 0xF := by decide

theorem test_decode_group_E_and_F :
    decode 0xE29E = .skpVx 0x2 ∧ decode 0xE3A1 = .sknpVx 0x3 ∧ decode 0xF407 = .ldVxDt 0x4 ∧
    decode 0xF50A = .ldVxK 0x5 ∧ decode 0xF615 = .ldDtVx 0x6 ∧ decode 0xF718 = .ldStVx 0x7 ∧
    decode 0xF81E = .addIVx 0x8 ∧ decode 0xF929 = .ldFVx 0x9 ∧ decode 0xFA33 = .ldBVx 0xA ∧
    decode 0xFB55 = .ldImemVx 0xB ∧ decode 0xFC65 = .ldVxImem 0xC := by decide

/-- B6: words that no row matches. -/
theorem test_decode_fallback :
    [0x0000, 0x00E1, 0x0123, 0x5121, 0x8128, 0x812F, 0x9121, 0xE29F, 0xE1A0, 0xF100, 0xF1FF].all
      (fun w => decide (decode w = .unknown w)) = true := by decide

/-- A10, the source's own bytes, high byte first (R62). -/
theorem test_decodeBytes_of_the_scenario :
    decodeBytes [0x60, 0x0A, 0x61, 0x05] = .ok (.ldVxNn 0x0 0x0A, [0x61, 0x05]) ∧
    decodeBytes [0x80, 0x14] = .ok (.addVxVy 0x0 0x1, []) := ⟨rfl, rfl⟩

theorem test_decodeBytes_rejects_a_lone_byte : decodeBytes [0x60] = .error .truncated := rfl

theorem test_decodeTableWord_takes_the_bits_as_numbered :
    decodeTableWord 16 0xD12F = some (.drwVxVyN 0x1 0x2 0xF) ∧ decodeTableWord 8 0xFFE0 = some (.cls) := by decide

theorem test_encode_of_each_layout :
    encode (.jpNnn 0xABC) = 0x1ABC ∧ encode (.seVxNn 0xA 0x42) = 0x3A42 ∧ encode (.drwVxVyN 0x1 0x2 0xF) = 0xD12F ∧
    encode (.shlVx 0x1 0x2) = 0x812E ∧ encode (.ldVxImem 0xC) = 0xFC65 := by decide

/-! ## One step: the conventions of 95_test_vectors -/

/-- `FONT` all zero. -/
def noFont : Font := Vector.replicate 80 0

/-- The reset state with `FONT` all zero and the identity `KEYMAP`. -/
def start : State :=
  { State.reset with font := noFont, keymap := #v[0, 1, 2, 3, 4, 5, 6, 7, 8, 9, 10, 11, 12, 13, 14, 15] }

/-- `KEYMAP = rev` of B5. -/
def rev : Vector KeyIdx 16 := #v[15, 14, 13, 12, 11, 10, 9, 8, 7, 6, 5, 4, 3, 2, 1, 0]

/-- The set of physical inputs that are pressed. -/
def keySet (ks : List Nat) : Vector Bool 16 := Vector.ofFn fun k => ks.contains k.val

/-- No tick, `RND = 0`, no key, `DIRTY_CLEAR` not asserted. -/
def quiet : HostTurn := ⟨keySet [], false, 0, false⟩

/-- A quiet turn with keys pressed. -/
def pressing (ks : List Nat) : HostTurn := ⟨keySet ks, false, 0, false⟩

/-- A quiet turn with a tick. -/
def ticking : HostTurn := ⟨keySet [], true, 0, false⟩

/-- A quiet turn with a random byte. -/
def drawing (b : Byte) : HostTurn := ⟨keySet [], false, b, false⟩

/-- A view of the state after the step that fetches `w` from `s` in the host turn `h`. -/
def stepTo {α : Type} (w : Word) (s : State) (h : HostTurn) (f : State → α) : Option α :=
  match step ({ s with script := [h] }.withFetchWord 16 w.toNat) with
  | .next t => some (f t)
  | .fault _ => none
  | .refused _ => none

/-- The same from where `PC` points, with nothing placed. -/
def stepHere {α : Type} (s : State) (h : HostTurn) (f : State → α) : Option α :=
  match step { s with script := [h] } with
  | .next t => some (f t)
  | .fault _ => none
  | .refused _ => none

/-- `FAULT` in the vectors' order. -/
def faultView (t : State) : BitVec 3 × Word × Word := (t.fault.cause.code, t.fault.pc, t.fault.info)

/-! ### Control flow, B1 -/

/-- B1.1 -/
theorem test_jump : stepTo 0x1ABC start quiet (fun t => t.pc) = some 0x0ABC := by decide
/-- B1.3 -/
theorem test_call : stepTo 0x2300 start quiet (fun t => (t.stack[0], t.sp.val, t.pc)) = some (0x0202, 1, 0x0300) := by
  decide
/-- B1.4, B1.5: the sixteenth entry is legal, the seventeenth is not. -/
theorem test_call_sixteenth_and_overflow :
    stepTo 0x2FFF { start with sp := 15 } quiet (fun t => (t.stack[15], t.sp.val, t.pc)) = some (0x0202, 16, 0x0FFF) ∧
    stepTo 0x2300 { start with sp := 16 } quiet (fun t => (t.pc, t.sp.val, faultView t)) =
      some (0x0200, 16, 1, 0x0200, 0x0300) := by decide
/-- B1.6 -/
theorem test_return : stepTo 0x00EE { start with sp := 1, stack := start.stack.set 0 0x0204 } quiet
    (fun t => (t.sp.val, t.pc, t.stack[0])) = some (0, 0x0204, 0x0204) := by decide
/-- B1.7 -/
theorem test_return_underflow : stepTo 0x00EE start quiet (fun t => (t.pc, faultView t)) =
    some (0x0200, 2, 0x0200, 0x0000) := by decide
/-- B1.10 -/
theorem test_jumpWithOffset : stepTo 0xBFFF (start.setReg 0 0xFF) quiet (fun t => t.pc) = some 0x10FE := by decide
/-- B1.12, B1.13 -/
theorem test_skipIfEqualImmediate : stepTo 0x3A42 (start.setReg 0xA 0x42) quiet (fun t => t.pc) = some 0x0204 ∧
    stepTo 0x3A42 (start.setReg 0xA 0x43) quiet (fun t => t.pc) = some 0x0202 := by decide
/-- B1.14, B1.15 -/
theorem test_skipIfNotEqualImmediate : stepTo 0x4A42 (start.setReg 0xA 0x42) quiet (fun t => t.pc) = some 0x0202 ∧
    stepTo 0x4A42 (start.setReg 0xA 0x43) quiet (fun t => t.pc) = some 0x0204 := by decide
/-- B1.17, B1.18 -/
theorem test_skipIfRegistersEqual :
    stepTo 0x5120 ((start.setReg 1 7).setReg 2 8) quiet (fun t => t.pc) = some 0x0202 ∧
    stepTo 0x5330 (start.setReg 3 9) quiet (fun t => t.pc) = some 0x0204 := by decide
/-- B1.19, B1.20 -/
theorem test_skipIfRegistersNotEqual :
    stepTo 0x9120 ((start.setReg 1 7).setReg 2 7) quiet (fun t => t.pc) = some 0x0202 ∧
    stepTo 0x9120 ((start.setReg 1 7).setReg 2 8) quiet (fun t => t.pc) = some 0x0204 := by decide
/-- B1.21: a skip at the last fetchable address does not look at the skipped word. -/
theorem test_skip_off_the_end : stepTo 0x3000 { start with pc := 0x0FFE } quiet (fun t => (t.pc, faultView t)) =
    some (0x1002, 0, 0, 0) := by decide

/-! ### Loads and arithmetic, B2 -/

/-- B2.1 -/
theorem test_loadImmediate : stepTo 0x63FF start quiet (fun t => (t.reg 3, t.pc)) = some (0xFF, 0x0202) := by decide
/-- B2.2: wraps, no flag. -/
theorem test_addImmediate_wraps : stepTo 0x7305 ((start.setReg 3 0xFE).setReg 15 1) quiet
    (fun t => (t.reg 3, t.reg 15)) = some (0x03, 0x01) := by decide
/-- B2.3 -/
theorem test_addImmediate_register_15 : stepTo 0x7F01 (start.setReg 15 0xFF) quiet (fun t => t.reg 15) = some 0 := by
  decide
/-- B2.4 -/
theorem test_assign : stepTo 0x8120 (start.setReg 2 0x5A) quiet (fun t => (t.reg 1, t.reg 2)) = some (0x5A, 0x5A) := by
  decide
/-- B2.5 -/
theorem test_or : stepTo 0x8121 (((start.setReg 1 0xF0).setReg 2 0x0F).setReg 15 1) quiet
    (fun t => (t.reg 1, t.reg 15)) = some (0xFF, 0x01) := by decide
/-- B2.6 -/
theorem test_and : stepTo 0x8122 (((start.setReg 1 0xF0).setReg 2 0x3C).setReg 15 1) quiet
    (fun t => (t.reg 1, t.reg 15)) = some (0x30, 0x01) := by decide
/-- B2.7 -/
theorem test_xor : stepTo 0x8123 (((start.setReg 1 0xF0).setReg 2 0x3C).setReg 15 1) quiet
    (fun t => (t.reg 1, t.reg 15)) = some (0xCC, 0x01) := by decide
/-- B2.10: the sum 255 is no carry, the flag is cleared. -/
theorem test_add_no_carry_at_255 : stepTo 0x8124 (((start.setReg 1 0x80).setReg 2 0x7F).setReg 15 1) quiet
    (fun t => (t.reg 1, t.reg 15)) = some (0xFF, 0x00) := by decide
/-- B2.12, B2.14: register 15 as destination and as operand. -/
theorem test_add_with_register_15 :
    stepTo 0x8F14 ((start.setReg 15 0xF0).setReg 1 0x20) quiet (fun t => t.reg 15) = some 0x01 ∧
    stepTo 0x81F4 ((start.setReg 1 0x02).setReg 15 0xFF) quiet (fun t => (t.reg 1, t.reg 15)) = some (0x01, 0x01) := by
  decide
/-- B2.16, B2.17: equal operands are no borrow. -/
theorem test_sub :
    stepTo 0x8125 ((start.setReg 1 5).setReg 2 5) quiet (fun t => (t.reg 1, t.reg 15)) = some (0x00, 0x01) ∧
    stepTo 0x8125 ((start.setReg 1 5).setReg 2 6) quiet (fun t => (t.reg 1, t.reg 15)) = some (0xFF, 0x00) := by
  decide
/-- B2.25, B2.28: the operand is `V[X]`; the flag overwrites the result in register 15. -/
theorem test_shiftRight :
    stepTo 0x8126 ((start.setReg 1 5).setReg 2 0xFF) quiet (fun t => (t.reg 1, t.reg 2, t.reg 15)) =
      some (0x02, 0xFF, 0x01) ∧
    stepTo 0x8FF6 (start.setReg 15 2) quiet (fun t => t.reg 15) = some 0x00 := by decide
/-- B2.22, B2.23 -/
theorem test_reverseSub :
    stepTo 0x8127 ((start.setReg 1 5).setReg 2 6) quiet (fun t => (t.reg 1, t.reg 15)) = some (0x01, 0x01) ∧
    stepTo 0x8127 ((start.setReg 1 6).setReg 2 5) quiet (fun t => (t.reg 1, t.reg 15)) = some (0xFF, 0x00) := by
  decide
/-- B2.29, B2.30 -/
theorem test_shiftLeft :
    stepTo 0x812E (start.setReg 1 0x81) quiet (fun t => (t.reg 1, t.reg 15)) = some (0x02, 0x01) ∧
    stepTo 0x812E ((start.setReg 1 0x41).setReg 15 1) quiet (fun t => (t.reg 1, t.reg 15)) = some (0x82, 0x00) := by
  decide
/-- B2.33, B2.36 -/
theorem test_randomAnd :
    stepTo 0xC10F start (drawing 0xA5) (fun t => t.reg 1) = some 0x05 ∧
    stepTo 0xCFF0 (start.setReg 15 1) (drawing 0xFF) (fun t => t.reg 15) = some 0xF0 := by decide

/-! ### Index register and memory, B3 -/

/-- B3.1 -/
theorem test_setIndex : stepTo 0xAFFF start quiet (fun t => (t.index, t.pc)) = some (0x0FFF, 0x0202) := by decide
/-- B3.2, B3.3: wraps at 65536, not at 4096, and writes no flag. -/
theorem test_addToIndex :
    stepTo 0xF11E { start.setReg 1 1 with index := 0x0FFF } quiet (fun t => t.index) = some 0x1000 ∧
    stepTo 0xF11E { start.setReg 1 2 with index := 0xFFFF } quiet (fun t => (t.index, t.reg 15)) =
      some (0x0001, 0x00) := by decide
/-- B3.5, B3.6 -/
theorem test_spriteAddress :
    stepTo 0xF129 (start.setReg 1 0x0A) quiet (fun t => t.index) = some 0x0032 ∧
    stepTo 0xF129 (start.setReg 1 0xFF) quiet (fun t => t.index) = some 0x04FB := by decide
/-- B3.9: the last legal base; B3.7's digits. -/
theorem test_storeBcd :
    stepTo 0xF133 { start.setReg 1 0x64 with index := 0x0FFD } quiet (fun t => t.bytes 0xFFD 3) =
      some [1, 0, 0] ∧
    stepTo 0xF133 { start.setReg 1 0xFF with index := 0x0300 } quiet (fun t => t.bytes 0x2FF 5) =
      some [0, 2, 5, 5, 0] := by decide
/-- B3.10: nothing written. -/
theorem test_storeBcd_bounds : stepTo 0xF133 { start.setReg 1 0x64 with index := 0x0FFE } quiet
    (fun t => (t.pc, faultView t, t.bytes 0xFFE 2)) = some (0x0200, (5, 0x0200, 0x0FFE), [0, 0]) := by decide
/-- B3.12; and R68: the font's bytes are ordinary memory. -/
theorem test_registerDump :
    stepTo 0xF255 { (((start.setReg 0 0x11).setReg 1 0x22).setReg 2 0x33).setReg 3 0x44 with index := 0x0400 } quiet
      (fun t => (t.bytes 0x400 4, t.index)) = some ([0x11, 0x22, 0x33, 0x00], 0x0400) ∧
    stepTo 0xF055 { start.setReg 0 0x77 with index := 0x0005, font := noFont.set 5 0x20 } quiet
      (fun t => (t.byte 4, t.byte 5, t.byte 6)) = some (0x00, 0x77, 0x00) := by decide
/-- B3.14, B3.16 -/
theorem test_registerDump_bounds :
    stepTo 0xF155 { (start.setReg 0 0x11).setReg 1 0x22 with index := 0x0FFF } quiet
      (fun t => (faultView t, t.byte 0xFFF)) = some ((5, 0x0200, 0x0FFF), 0) ∧
    stepTo 0xFF55 { (start.setReg 0 1).setReg 15 0x0F with index := 0x0FF0 } quiet
      (fun t => (t.byte 0xFF0, t.byte 0xFFF)) = some (0x01, 0x0F) := by decide
/-- B3.17 -/
theorem test_registerLoad : stepTo 0xF265
    { start.setReg 3 0x99 with index := 0x0400, mem := [(0x400, 0xDE), (0x401, 0xAD), (0x402, 0xBE), (0x403, 0xEF)] }
    quiet (fun t => (t.reg 0, t.reg 1, t.reg 2, t.reg 3, t.index)) = some (0xDE, 0xAD, 0xBE, 0x99, 0x0400) := by
  decide
/-- B3.18 -/
theorem test_registerLoad_bounds : stepTo 0xFF65 { start with index := 0x0FF1 } quiet
    (fun t => (t.pc, faultView t)) = some (0x0200, 5, 0x0200, 0x0FF1) := by decide

/-! ### Display, B4 -/

/-- The framebuffer with one lit pixel. -/
def lit (y : Fin 32) (x : Fin 64) : Frame := Frame.flip Frame.blank y x

/-- B4.1, B4.2 -/
theorem test_clearScreen :
    stepTo 0x00E0 { start with fb := lit 31 63 } quiet (fun t => (t.pixel 31 63, t.dirty)) = some (false, true) ∧
    stepTo 0x00E0 start quiet (fun t => (t.pixel 0 0, t.dirty)) = some (false, true) := by decide
/-- B4.6: one pixel set, one erased, coordinates reduced. B4.14: the coordinates are read from the old `VF`. -/
theorem test_draw_collision_and_register_15 :
    stepTo 0xD011
      { (start.setReg 0 0x40).setReg 1 0x20 with index := 0x0300, mem := [(0x300, 0xC0)], fb := lit 0 1 } quiet
      (fun t => (t.pixel 0 0, t.pixel 0 1, t.reg 15, t.dirty)) = some (true, false, 0x01, true) ∧
    stepTo 0xDFF1 { start.setReg 15 3 with index := 0x0300, mem := [(0x300, 0x80)] } quiet
      (fun t => (t.pixel 3 3, t.reg 15)) = some (true, 0x00) := by decide
/-- B4.8: the second row wraps to row 0, bit 0 is column 67 mod 64. B4.10, B4.11: no check when `N = 0`; `VF` kept when
the span is outside. -/
theorem test_draw_wraps_and_bounds :
    stepTo 0xD012
      { (start.setReg 0 0x3C).setReg 1 0x1F with index := 0x0300, mem := [(0x300, 0xFF), (0x301, 0x01)] } quiet
      (fun t => (t.pixel 31 63, t.pixel 31 3, t.pixel 31 4, t.pixel 0 3, t.pixel 0 60, t.reg 15)) =
        some (true, true, false, true, false, 0x00) ∧
    stepTo 0xD010 { start.setReg 15 1 with index := 0xFFFF } quiet (fun t => (t.reg 15, t.dirty, t.pc)) =
      some (0x00, false, 0x0202) ∧
    stepTo 0xD011 { start.setReg 15 1 with index := 0x1000 } quiet (fun t => (t.reg 15, faultView t)) =
      some (0x01, 5, 0x0200, 0x1000) := ⟨by decide, by decide, by decide⟩

/-! ### Keys and timers, B5 -/

/-- B5.1, B5.7: through `KEYMAP`. -/
theorem test_skipIfKeyPressed :
    stepTo 0xE29E (start.setReg 2 5) (pressing [5]) (fun t => t.pc) = some 0x0204 ∧
    stepTo 0xE29E { start.setReg 2 5 with keymap := rev } (pressing [5]) (fun t => t.pc) = some 0x0202 := by decide
/-- B5.5: 16 is not masked to 0. -/
theorem test_skipIfKeyPressed_range : stepTo 0xE29E (start.setReg 2 0x10) (pressing [0]) (fun t => (t.pc, faultView t)) =
    some (0x0200, 6, 0x0200, 0x0010) := by decide
/-- B5.3, B5.4 -/
theorem test_skipIfKeyNotPressed :
    stepTo 0xE2A1 (start.setReg 2 5) (pressing [5]) (fun t => t.pc) = some 0x0202 ∧
    stepTo 0xE2A1 (start.setReg 2 5) quiet (fun t => t.pc) = some 0x0204 := by decide
/-- B5.6 -/
theorem test_skipIfKeyNotPressed_range : stepTo 0xE2A1 (start.setReg 2 0xFF) quiet faultView =
    some (6, 0x0200, 0x00FF) := by decide
/-- B5.9 -/
theorem test_awaitKey_holds : stepTo 0xF30A { start.setReg 3 0x99 with pc := 0x0210 } quiet
    (fun t => (t.pc, t.reg 3, t.report.keywait)) = some (0x0210, 0x99, true) := by decide
/-- B5.12: physical 7 is virtual 8, physical 3 is virtual 12; the lowest virtual key wins. -/
theorem test_awaitKey_lowest_virtual : stepTo 0xF30A { start.setReg 3 0x99 with pc := 0x0210, keymap := rev }
    (pressing [3, 7]) (fun t => (t.pc, t.reg 3, t.report.keywait)) = some (0x0212, 0x08, false) := by decide
/-- B5.15: this step's decrement is seen. -/
theorem test_loadDelayTimer : stepTo 0xF507 { start with dt := 5 } ticking (fun t => (t.dt, t.reg 5)) =
    some (4, 4) := by decide
/-- B5.17: the write comes after the service. -/
theorem test_setDelayTimer : stepTo 0xF115 { start.setReg 1 0x3C with dt := 7 } ticking (fun t => t.dt) =
    some 60 := by decide
/-- B5.19 -/
theorem test_setSoundTimer : stepTo 0xF118 { start.setReg 1 3 with st := 1, audio := true } ticking
    (fun t => (t.st, t.audio)) = some (3, false) := by decide
/-- B5.22, B5.25: the timer service. -/
theorem test_timerService :
    stepTo 0x6000 { start with st := 1, audio := true } ticking (fun t => (t.st, t.audio)) = some (0, false) ∧
    stepTo 0x6000 { start with st := 5 } quiet (fun t => (t.st, t.audio)) = some (5, false) := by decide

/-! ### The fallback, fetch faults, the halted state, the host: B6, B7 -/

/-- B6.6 -/
theorem test_unknown : stepTo 0x5121 start quiet (fun t => (t.pc, t.report, t.fault.cause)) =
    some (0x0202, ⟨true, 0x0200, 0x5121, false⟩, .noFault) := by decide
/-- B7.2, B7.4: bounds before alignment. -/
theorem test_fetch_faults :
    stepHere { start with pc := 0x1001 } quiet faultView = some (3, 0x1001, 0x1001) ∧
    stepHere { start with pc := 0x0201 } quiet faultView = some (4, 0x0201, 0x0201) := by decide
/-- B7.5: the faulting step's timer service stands. -/
theorem test_fetch_fault_serves_timers : stepHere { start with pc := 0x0FFF, dt := 3 } ticking
    (fun t => (t.dt, faultView t)) = some (2, 3, 0x0FFF, 0x0FFF) := by decide
/-- B7.6: a halted engine serves no timer. -/
theorem test_halted : stepHere { start with pc := 0x0FFF, dt := 2, fault := ⟨.fetchBounds, 0x0FFF, 0x0FFF⟩ } ticking
    (fun t => (t.dt, t.pc, faultView t)) = some (2, 0x0FFF, 3, 0x0FFF, 0x0FFF) := by decide
/-- A3: the host clears `DIRTY` between steps (R42). -/
theorem test_dirtyClear : stepTo 0x6000 { start with dirty := true } ⟨keySet [], false, 0, true⟩ (fun t => t.dirty) =
    some false := by decide
/-- R62, R70: the word is stored high byte first where the step fetches. -/
theorem test_withFetchWord : (start.withFetchWord 16 0xD12F).mem = [(0x200, 0xD1), (0x201, 0x2F)] := by decide

/-- R290: a launch with a font byte and two image bytes, from a halted state; the font is read where it lies. -/
theorem test_launch :
    (match perform (.reset [0x60, 0x0A] (noFont.set 5 0x20) rev) { start with fault := ⟨.fetchBounds, 1, 1⟩, dt := 9 } with
      | .next t => some (t.bytes 0x1FF 4, t.bytes 4 3, t.pc, t.dt, t.fault.cause)
      | .fault _ => none
      | .refused _ => none) = some ([0, 0x60, 0x0A, 0], [0, 0x20, 0], 0x0200, 0, .noFault) := by decide
/-- GK5 and B7's launch: glyphs 0, A and F of the conventional font lie at five times their digit. -/
theorem test_conventionalFont :
    (let s := launch [] Config.conventionalFont rev start
     (s.bytes 0 5, s.bytes 50 5, s.bytes 75 6)) =
      ([0xF0, 0x90, 0x90, 0x90, 0xF0], [0xF0, 0x90, 0xF0, 0x90, 0x90], [0xF0, 0x80, 0xF0, 0x80, 0x80, 0]) := by decide
/-- R291: an image of 3584 bytes is a launch, one of 3585 is not; the checks only, not the memories. -/
theorem test_launchOk : launchOk (List.replicate 3584 0) = true ∧ launchOk (List.replicate 3585 0) = false := by
  unfold launchOk
  rw [List.length_replicate, List.length_replicate]; decide

/-! ## Witnesses: for every statement with hypotheses, a state and operands that meet them, clause by clause, at the
boundary values of the clause -/

/-- A running engine with one word placed at `PC`. -/
def placed (pc w : Word) : State := { start with pc := pc }.placeWord w

/-! ### Encoding and the step -/

theorem test_witness_DecodeOfEncodeIsTheInstruction :
    Instr.wellFormed (.unknown 0x0000) = true ∧ Instr.wellFormed (.drwVxVyN 0xF 0xF 0xF) = true ∧
    Instr.wellFormed (.jpNnn 0xFFF) = true := by decide

theorem test_witness_StepRunsTheDecodedInstruction :
    (placed 0x0FFE 0x00E0).fault.cause = .noFault ∧ Fetchable (placed 0x0FFE 0x00E0).pc ∧
    decodeBytes ((placed 0x0FFE 0x00E0).bytes (placed 0x0FFE 0x00E0).pc.toNat 2) = .ok (.cls, []) :=
  ⟨rfl, by decide, rfl⟩

/-- A state halted by a key skip, as `FaultSound` wants it. -/
def halted : State := { (placed 0x0200 0xE29E).setReg 2 16 with fault := ⟨.keyIndexRange, 0x0200, 16⟩ }

theorem test_witness_HaltedStepDoesNothing : halted.fault.cause ≠ .noFault := by decide

theorem test_witness_HostTurnIsTakenWhenTheStepBegins :
    { start with script := [pressing [3]] }.script = pressing [3] :: [] ∧ start.script = [] := ⟨rfl, rfl⟩

theorem test_witness_TimerServiceCountsDownOnATick :
    { start with tick := true, dt := 0, st := 1 }.tick = true ∧ start.tick = false ∧
    start.fault.cause = .noFault := by decide

theorem test_witness_FetchFaultsAreTaken :
    start.fault.cause = .noFault ∧ 0x0FFE < (0x0FFF : Word).toNat ∧
    ((0x0FFD : Word).toNat ≤ 0x0FFE ∧ (0x0FFD : Word).toNat % 2 = 1) := by decide

theorem test_witness_FetchReadsTheHighByteFirst : Fetchable 0x0FFE ∧ Fetchable 0x0000 := by decide

/-- Two registers dumped over the last two bytes of memory, the word after a dump at 0x0FFC. -/
theorem test_witness_StoredWordIsFetchedByTheNextStep :
    start.mem.wf start.font = true ∧ (0x0FFE : Word).toNat + (1 : RegIdx).toNat ≤ 4095 ∧
    (1 : RegIdx).toNat = (0 : RegIdx).toNat + 1 ∧ (1 : RegIdx).toNat ≤ (1 : RegIdx).toNat ∧
    (0x0FFC : Word).toNat + 2 = (0x0FFE : Word).toNat + (0 : RegIdx).toNat ∧ (0x0FFC : Word).toNat % 2 = 0 := by
  decide

theorem test_witness_ReportSaysUnknownWordAndKeyWait :
    AtInstr (placed 0x0FFE 0x5121) (.unknown 0x5121) ∧ (∃ t, step (placed 0x0FFE 0x5121) = .next t) ∧
    (∀ w, ¬ AtInstr (placed 0x0200 0x00E0) (.unknown w)) ∧ (∃ t, step (placed 0x0200 0x00E0) = .next t) ∧
    AtInstr (placed 0x0200 0xF30A) (.ldVxK 3) := by
  refine ⟨⟨rfl, by decide, by decide⟩, ⟨_, rfl⟩, fun w h => ?_, ⟨_, rfl⟩, ⟨rfl, by decide, by decide⟩⟩
  have e : decode ((placed 0x0200 0x00E0).word (placed 0x0200 0x00E0).pc.toNat) = .cls := by decide
  have h' := e.symm.trans h.2.2
  cases h'

/-! ### Reset -/

theorem test_witness_ResetGivesEveryElementItsValue :
    (List.replicate 3584 (0xAB : Byte)).length ≤ 3584 ∧ ([] : List Byte).length ≤ 3584 := by
  rw [List.length_replicate]; decide

theorem test_witness_BadLaunchIsRefusedByName :
    3584 < (List.replicate 3585 (0 : Byte)).length := by
  rw [List.length_replicate]; decide

/-! ### Control flow -/

theorem test_witness_CallPushesTheReturnAddress :
    { start with sp := 15 }.sp.val < 16 ∧ start.sp.val < 16 ∧ { start with sp := 16 }.sp.val = 16 := by decide

theorem test_witness_ReturnPopsIntoTheProgramCounter :
    0 < { start with sp := 1 }.sp.val ∧ 0 < { start with sp := 16 }.sp.val ∧ start.sp.val = 0 := by decide

theorem test_witness_ReturnLandsAfterTheCall :
    { start with sp := 15 }.sp.val < 16 ∧
    ∃ t, exec (.callNnn 0x300) { start with sp := 15 } = .next t ∧ t.sp = t.sp ∧ t.stack = t.stack :=
  ⟨by decide, _, rfl, rfl, rfl⟩

/-! ### Flags: with `X` not 15 -/

theorem test_witness_ArithmeticAndShifts : (0 : RegIdx) ≠ 15 ∧ (14 : RegIdx) ≠ 15 := by decide

/-! ### Index register and memory -/

theorem test_witness_StoreBcdWritesThreeDigits :
    start.mem.wf start.font = true ∧ { start with index := 0x0FFD }.index.toNat ≤ 4093 ∧
    4093 < { start with index := 0x0FFE }.index.toNat ∧ 4093 < { start with index := 0xFFFF }.index.toNat := by decide

theorem test_witness_RegisterDumpStoresVzeroToVx :
    start.mem.wf start.font = true ∧ { start with index := 0x0FF0 }.index.toNat + (15 : RegIdx).toNat ≤ 4095 ∧
    { start with index := 0x0FFF }.index.toNat + (0 : RegIdx).toNat ≤ 4095 ∧
    4095 < { start with index := 0x0FF1 }.index.toNat + (15 : RegIdx).toNat ∧
    4095 < { start with index := 0x1000 }.index.toNat + (0 : RegIdx).toNat := by decide

theorem test_witness_RegisterLoadFillsVzeroToVx :
    { start with index := 0x0FF0 }.index.toNat + (15 : RegIdx).toNat ≤ 4095 ∧
    4095 < { start with index := 0x0FF1 }.index.toNat + (15 : RegIdx).toNat := by decide

theorem test_witness_LoadAfterDumpRestoresTheRegisters :
    start.mem.wf start.font = true ∧ { start with index := 0x0FF0 }.index.toNat + (15 : RegIdx).toNat ≤ 4095 ∧
    ∃ t, exec (.ldImemVx 15) { start with index := 0x0FF0 } = .next t ∧ (∀ a, t.byte a = t.byte a) ∧ t.index = t.index :=
  ⟨by decide, by decide, _, rfl, fun _ => rfl, rfl⟩

/-! ### Display -/

theorem test_witness_DrawTogglesTheAddressedPixels :
    ((0 : Nibble).toNat = 0) ∧
    { start with index := 0x0FF1 }.index.toNat + (15 : Nibble).toNat - 1 ≤ 4095 ∧
    (0 < (15 : Nibble).toNat ∧ 4095 < { start with index := 0x0FF2 }.index.toNat + (15 : Nibble).toNat - 1) ∧
    (0 < (1 : Nibble).toNat ∧ 4095 < { start with index := 0x1000 }.index.toNat + (1 : Nibble).toNat - 1) := by decide

/-- A sprite row 0x80 at column 63, row 31: that pixel is addressed, its right neighbour (column 0) is not. -/
theorem test_witness_Addressed :
    Addressed { (start.setReg 0 0xFF).setReg 1 0xFF with index := 0x0300, mem := [(0x300, 0x80)] } 0 1 1 31 63 ∧
    ¬ Addressed { (start.setReg 0 0xFF).setReg 1 0xFF with index := 0x0300, mem := [(0x300, 0x80)] } 0 1 1 31 0 := by
  refine ⟨⟨0, 0, by decide, by decide, by decide, by decide, by decide⟩, ?_⟩
  rintro ⟨r, c, hr, hc, _, hx, hb⟩
  have hr' : r = 0 := by have : (1 : Nibble).toNat = 1 := rfl; omega
  subst hr'
  have hx' : (0 : Nat) = (63 + c) % 64 := hx
  have hc' : c = 1 := by omega
  subst hc'
  exact absurd hb (by decide)

theorem test_witness_DrawingTwiceRestoresTheScreen :
    (0 : RegIdx) ≠ 15 ∧ (14 : RegIdx) ≠ 15 ∧
    { start with index := 0x0FF1 }.index.toNat + (15 : Nibble).toNat - 1 ≤ 4095 ∧
    ∃ t, exec (.drwVxVyN 0 14 15) { start with index := 0x0FF1 } = .next t :=
  ⟨by decide, by decide, by decide, _, rfl⟩

/-! ### Keys -/

theorem test_witness_KeySkipsTestTheMappedKey :
    ((start.setReg 2 15).reg 2).toNat = (15 : Fin 16).val ∧ ((start.setReg 2 0).reg 2).toNat = (0 : Fin 16).val ∧
    15 < ((start.setReg 2 16).reg 2).toNat ∧ 15 < ((start.setReg 2 255).reg 2).toNat := by decide

theorem test_witness_AwaitKeyTakesTheLowestPressedKeyOrHolds :
    ({ start with keys := keySet [15] }.keys[({ start with keys := keySet [15] }.keymap[(15 : Fin 16)]).toNat] = true ∧
      ∀ j : Fin 16, j < 15 →
        { start with keys := keySet [15] }.keys[({ start with keys := keySet [15] }.keymap[j]).toNat] = false) ∧
    { start with keys := keySet [0] }.keys[({ start with keys := keySet [0] }.keymap[(0 : Fin 16)]).toNat] = true ∧
    ∀ k : Fin 16, start.keys[(start.keymap[k]).toNat] = false := by decide

/-! ### Rules of the whole machine -/

theorem test_witness_RegistersChangeOnlyWhereListed :
    (∃ t, exec (.ldVxImem 14) { start with index := 0x0FF1 } = .next t) ∧ (15 : RegIdx) ∉ Instr.destRegs (.ldVxImem 14) ∧
    ¬ ((15 : RegIdx) = 15 ∧ Instr.writesFlag (.ldVxImem 14) = true) := ⟨⟨_, rfl⟩, by decide, by decide⟩

theorem test_witness_IndexChangesOnlyInThreeInstructions :
    (∃ t, exec (.ldBVx 0) start = .next t) ∧ (∀ nnn, Instr.ldBVx 0 ≠ .ldINnn nnn) ∧
    (∀ x, Instr.ldBVx 0 ≠ .addIVx x) ∧ (∀ x, Instr.ldBVx 0 ≠ .ldFVx x) :=
  ⟨⟨_, rfl⟩, by simp, by simp, by simp⟩

theorem test_witness_StackChangesOnlyInCallAndReturn :
    (∃ t, exec .ret { start with sp := 1 } = .next t) ∧ (∀ nnn, Instr.ret ≠ .callNnn nnn) ∧
    (∃ t, exec .cls start = .next t) ∧ (∀ nnn, Instr.cls ≠ .callNnn nnn) ∧ Instr.cls ≠ .ret :=
  ⟨⟨_, rfl⟩, by simp, ⟨_, rfl⟩, by simp, by simp⟩

theorem test_witness_ScreenChangesOnlyInClearAndDraw :
    (∃ t, exec (.drwVxVyN 0 1 0) { start with dirty := true } = .next t) ∧ { start with dirty := true }.dirty = true ∧
    (∃ t, exec .ret start = .next t) ∧ Instr.ret ≠ .cls ∧ (∀ x y n, Instr.ret ≠ .drwVxVyN x y n) :=
  ⟨⟨_, rfl⟩, rfl, ⟨_, rfl⟩, by simp, by simp⟩

theorem test_witness_TimersChangeOnlyInTimerSets :
    (∃ t, exec (.ldVxDt 0) start = .next t) ∧ (∀ x, Instr.ldVxDt 0 ≠ .ldDtVx x) ∧
    (∀ x, Instr.ldVxDt 0 ≠ .ldStVx x) := ⟨⟨_, rfl⟩, by simp, by simp⟩

theorem test_witness_MemoryChangesOnlyInTheTwoStores :
    (∃ t, exec (.ldVxImem 15) { start with index := 0x0FF0 } = .next t) ∧ (∀ x, Instr.ldVxImem 15 ≠ .ldBVx x) ∧
    (∀ x, Instr.ldVxImem 15 ≠ .ldImemVx x) := ⟨⟨_, rfl⟩, by simp, by simp⟩

theorem test_witness_InputsAndKeyMappingAreNeverWritten : ∃ t, exec (.ldVxK 0) start = .next t := ⟨_, rfl⟩

theorem test_witness_OnlyRandomAndReadsTheRandomByte :
    (∀ x nn, Instr.ldVxNn 0 1 ≠ .rndVxNn x nn) ∧ ∃ t, exec (.ldVxNn 0 1) start = .next t := ⟨by simp, _, rfl⟩

theorem test_witness_ProgramCounterPolicies :
    (∃ t, exec .ret { start with sp := 16 } = .next t) ∧ (∃ t, exec (.skpVx 0) (start.setReg 0 16) = .next t) :=
  ⟨⟨_, rfl⟩, ⟨_, rfl⟩⟩

theorem test_witness_FaultsAreThoseOfTheTableAndPrecise :
    faultOf (.callNnn 0x300) { start with sp := 16 } = some (.stackOverflow, 0x0300) ∧
    faultOf (.callNnn 0x300) { start with sp := 15 } = none ∧
    faultOf (.drwVxVyN 0 0 15) { start with index := 0x0FF2 } = some (.dataBounds, 0x0FF2) ∧
    faultOf (.drwVxVyN 0 0 15) { start with index := 0x0FF1 } = none ∧
    faultOf (.skpVx 2) (start.setReg 2 16) = some (.keyIndexRange, 16) ∧
    faultOf (.skpVx 2) (start.setReg 2 15) = none := by decide

/-! ### Invariants and the host -/

/-- Entries 0x0002 and 0x1000, `PC` at 0x0FFE. -/
def nested : State :=
  { placed 0x0FFE 0x00EE with sp := 2, stack := (start.stack.set 0 0x0002).set 1 0x1000 }

theorem test_witness_StepKeepsMemoryCanonical :
    MemoryCanonical nested ∧ ∃ t, step nested = .next t := ⟨by decide, _, rfl⟩

theorem test_witness_StepKeepsReturnAddressesSound :
    ControlSound nested ∧ ControlSound { start with pc := 0x10FE } ∧ ∃ t, step nested = .next t :=
  ⟨by decide, by decide, _, rfl⟩

theorem faultSound_halted : FaultSound halted := by
  intro _
  refine ⟨rfl, ?_⟩
  rw [if_neg (by decide), if_neg (by decide)]
  decide

theorem test_witness_StepKeepsTheFaultRecordTrue :
    FaultSound halted ∧ halted.fault.cause ≠ .noFault ∧ (∃ t, step halted = .next t) ∧
    FaultSound nested ∧ ∃ t, step nested = .next t :=
  ⟨faultSound_halted, by decide, ⟨_, rfl⟩, fun h => absurd rfl h, _, rfl⟩

theorem test_witness_HostActionsKeepTheInvariants :
    MemoryCanonical halted ∧ ControlSound halted ∧ FaultSound halted ∧
    (∃ t, perform .dirtyClear halted = .next t) ∧
    ∃ t, perform (.reset [0x12, 0x00] noFont rev) halted = .next t :=
  ⟨by decide, by decide, faultSound_halted, ⟨_, rfl⟩, _, rfl⟩

theorem test_witness_HostHasNoPortIntoTheEngine :
    HostAction.dirtyClear ≠ .step ∧ (∀ i f k, HostAction.dirtyClear ≠ .reset i f k) ∧
    (∃ t, perform .dirtyClear start = .next t) ∧
    HostAction.schedule [quiet] ≠ .step ∧ (∀ i f k, HostAction.schedule [quiet] ≠ .reset i f k) ∧
    (∃ t, perform (.schedule [quiet]) start = .next t) :=
  ⟨by simp, by simp, ⟨_, rfl⟩, by simp, by simp, _, rfl⟩

/-! ### Runs -/

theorem test_witness_HaltedEngineStaysHalted : halted.fault.cause ≠ .noFault := by decide

/-- A self-jump at 0x0FFE, the last fetchable address, with two ticks to come. -/
def ended : State := { placed 0x0FFE 0x1FFE with script := [ticking, ticking], dt := 1, st := 3 }

theorem test_witness_SelfJumpMovesOnlyTheTimers : Ended ended := ⟨0xFFE, ⟨rfl, by decide, by decide⟩, by decide⟩

theorem test_witness_TimersReachZeroAfterThatManyTicks :
    Ended ended ∧ 2 ≤ ended.script.length ∧ ∀ h ∈ ended.script.take 2, h.tick = true :=
  ⟨test_witness_SelfJumpMovesOnlyTheTimers, by decide, by decide⟩

theorem test_witness_AwaitKeyHoldsStepAfterStep :
    AtInstr { placed 0x0200 0xF30A with script := [quiet, ticking] } (.ldVxK 3) ∧
    2 ≤ { placed 0x0200 0xF30A with script := [quiet, ticking] }.script.length ∧
    ∀ h ∈ { placed 0x0200 0xF30A with script := [quiet, ticking] }.script.take 2, ∀ k : Fin 16, h.keys[k] = false :=
  ⟨⟨rfl, by decide, by decide⟩, by decide, by decide⟩

end Sys2Proof.Tests
end

section
/-! PROOFS. What an instruction can change: the shapes a next state can have, one constructor each, and the lemma
that every instruction ends in one of them. -/

namespace Sys2Proof.Machine

open Sys2Proof.Safety

/-- The next states an instruction `i` can reach from `s`, by what they change. The tables of Safety.lean and the
constructor of `i` say which instructions have each shape. -/
inductive Effect (i : Instr) (s : State) : State → Prop where
  /-- A fault is taken (60_exceptions R260). -/
  | faulted (c : FaultCause) (info : Word) : Effect i s (s.raise c info)
  /-- Only `PC` moves (40_step_cycle R130). -/
  | moved (pc : Word) : Effect i s { s with pc := pc }
  /-- The report is written (45_keys_timers R222, 46_unrecognized R240). -/
  | reported (r : Report) (pc : Word) : Effect i s { s with report := r, pc := pc }
  /-- A destination register is written (10_state R21). -/
  | register (x : RegIdx) (b : Byte) (hx : x ∈ Instr.destRegs i) : Effect i s (s.setReg x b).advance
  /-- A destination register and then the flag are written (42_load_alu R161). -/
  | registerAndFlag (x : RegIdx) (b : Byte) (c : Bool) (hx : x ∈ Instr.destRegs i)
      (hf : Instr.writesFlag i = true) : Effect i s (s.setResultAndFlag x b c).advance
  /-- register-load (43_index_memory R185). -/
  | loaded (x : RegIdx) (a : Nat) (hi : i = .ldVxImem x) : Effect i s (s.loadRegs x a).advance
  /-- set-index, add-to-index and sprite-address (10_state R27). -/
  | indexed (w : Word) (hi : (∃ nnn, i = .ldINnn nnn) ∨ (∃ x, i = .addIVx x) ∨ ∃ x, i = .ldFVx x) :
      Effect i s { s with index := w }.advance
  /-- store-bcd and register-dump, over their span from `I` (20_memory R60). -/
  | stored (bs : List Byte) (hi : (∃ x, i = .ldBVx x) ∨ ∃ x, i = .ldImemVx x) (hl : bs.length = Instr.span i) :
      Effect i s (s.store (s.effAddr 0) bs).advance
  /-- call (41_control_flow R142). -/
  | pushed (nnn : Addr) (stack : Vector Word 16) (sp : Fin 17) (pc : Word) (hi : i = .callNnn nnn) :
      Effect i s { s with stack := stack, sp := sp, pc := pc }
  /-- return (41_control_flow R140). -/
  | popped (sp : Fin 17) (pc : Word) (hi : i = .ret) : Effect i s { s with sp := sp, pc := pc }
  /-- clear-screen (44_display R200). -/
  | cleared (hi : i = .cls) : Effect i s { s with fb := Frame.blank, dirty := true }.advance
  /-- draw-sprite (44_display R201). -/
  | drawn (x y : RegIdx) (n : Nibble) (hi : i = .drwVxVyN x y n) : Effect i s (s.afterDraw x y n).advance
  /-- set-delay-timer (45_keys_timers R224). -/
  | delaySet (x : RegIdx) (hi : i = .ldDtVx x) : Effect i s { s with dt := s.reg x }.advance
  /-- set-sound-timer (45_keys_timers R225). -/
  | soundSet (x : RegIdx) (hi : i = .ldStVx x) : Effect i s { s with st := s.reg x }.advance

variable {i : Instr} {s : State}

/-! ## The instructions that can end in two ways -/

theorem exec_ret_of_empty (h : s.sp = 0) : exec .ret s = .next (s.raise .stackUnderflow 0) := by
  rw [exec, execRet, s.pop_empty h]

theorem exec_ret_of_nonempty (h : s.sp.val ≠ 0) :
    exec .ret s = .next { s with pc := s.stack[s.sp.val - 1]'(by omega), sp := ⟨s.sp.val - 1, by omega⟩ } := by
  rw [exec, execRet, s.pop_some h]
  rfl

theorem exec_callNnn_of_full (nnn : Addr) (h : s.sp = 16) :
    exec (.callNnn nnn) s = .next (s.raise .stackOverflow (zextAddr nnn)) := by
  rw [exec, execCallNnn, s.push_full _ h]

theorem exec_callNnn_of_room (nnn : Addr) (h : s.sp.val < 16) :
    exec (.callNnn nnn) s = .next { s with
      pc := zextAddr nnn, stack := s.stack.set s.sp.val (s.pc + 2) h, sp := ⟨s.sp.val + 1, by omega⟩ } := by
  rw [exec, execCallNnn, s.push_room _ h]
  rfl

theorem exec_ldVxK_of_none (x : RegIdx) (h : s.firstPressed = none) :
    exec (.ldVxK x) s = .next s.holdForKey := by
  rw [exec, execLdVxK, h]

theorem exec_ldVxK_of_some (x : RegIdx) {k : KeyIdx} (h : s.firstPressed = some k) :
    exec (.ldVxK x) s = .next (s.setReg x (k.setWidth 8)).advance := by
  rw [exec, execLdVxK, h]

theorem State.keySkip_of_above {x : RegIdx} (want : Bool) (h : (s.reg x).toNat > 15) :
    s.keySkip x want = s.raise .keyIndexRange (zextByte (s.reg x)) := if_pos h

theorem State.keySkip_of_key {x : RegIdx} (want : Bool) (h : ¬ (s.reg x).toNat > 15) :
    s.keySkip x want = s.skipIf (s.pressed (keyOf (s.reg x)) == want) := if_neg h

/-- A checked access has the effect of the access, or faults (20_memory R61). -/
theorem effect_access (n : Nat) {d : State} (h : Effect i s d) : Effect i s (s.access n d) := by
  obtain ⟨-, e⟩ | ⟨-, e⟩ := s.access_cases n d <;> rw [e]
  · exact h
  · exact .faulted ..

/-- A key skip moves `PC`, or faults (45_keys_timers R227). -/
theorem effect_keySkip (x : RegIdx) (want : Bool) : Effect i s (s.keySkip x want) := by
  by_cases h : (s.reg x).toNat > 15
  · rw [State.keySkip_of_above want h]
    exact .faulted ..
  · rw [State.keySkip_of_key want h]
    exact .moved _

theorem exec_ret_effect (s : State) : ∃ t, exec .ret s = .next t ∧ Effect .ret s t := by
  by_cases h : s.sp = 0
  · exact ⟨_, exec_ret_of_empty h, .faulted ..⟩
  · exact ⟨_, exec_ret_of_nonempty (Fin.val_ne_zero_iff.mpr h), .popped _ _ rfl⟩

theorem exec_callNnn_effect (nnn : Addr) (s : State) :
    ∃ t, exec (.callNnn nnn) s = .next t ∧ Effect (.callNnn nnn) s t := by
  by_cases h : s.sp = 16
  · exact ⟨_, exec_callNnn_of_full nnn h, .faulted ..⟩
  · exact ⟨_, exec_callNnn_of_room nnn (s.sp_lt_of_ne h), .pushed nnn _ _ _ rfl⟩

theorem exec_ldVxK_effect (x : RegIdx) (s : State) :
    ∃ t, exec (.ldVxK x) s = .next t ∧ Effect (.ldVxK x) s t := by
  cases h : s.firstPressed with
  | none => exact ⟨_, exec_ldVxK_of_none x h, .reported ..⟩
  | some k => exact ⟨_, exec_ldVxK_of_some x h, .register x _ (List.mem_singleton_self x)⟩

/-! ## Every instruction -/

/-- Every instruction answers a next state, of one of the shapes of `Effect`. -/
theorem exec_effect (i : Instr) (s : State) : ∃ t, exec i s = .next t ∧ Effect i s t := by
  cases i with
  | ret => exact exec_ret_effect s
  | callNnn nnn => exact exec_callNnn_effect nnn s
  | ldVxK x => exact exec_ldVxK_effect x s
  | jpNnn | jpV0Nnn | seVxNn | sneVxNn | seVxVy | sneVxVy => exact ⟨_, rfl, .moved _⟩
  | skpVx x => exact ⟨_, rfl, effect_keySkip x true⟩
  | sknpVx x => exact ⟨_, rfl, effect_keySkip x false⟩
  | ldVxNn x | addVxNn x | ldVxVy x | orVxVy x | andVxVy x | xorVxVy x | rndVxNn x | ldVxDt x =>
    exact ⟨_, rfl, .register x _ (List.mem_singleton_self x)⟩
  | addVxVy x | subVxVy x | shrVx x | subnVxVy x | shlVx x =>
    exact ⟨_, rfl, .registerAndFlag x _ _ (List.mem_singleton_self x) rfl⟩
  | ldINnn nnn => exact ⟨_, rfl, .indexed _ (.inl ⟨nnn, rfl⟩)⟩
  | addIVx x => exact ⟨_, rfl, .indexed _ (.inr (.inl ⟨x, rfl⟩))⟩
  | ldFVx x => exact ⟨_, rfl, .indexed _ (.inr (.inr ⟨x, rfl⟩))⟩
  | ldBVx x => exact ⟨_, rfl, effect_access 3 (.stored _ (.inl ⟨x, rfl⟩) rfl)⟩
  | ldImemVx x => exact ⟨_, rfl, effect_access _ (.stored _ (.inr ⟨x, rfl⟩) (s.length_regsUpTo x))⟩
  | ldVxImem x => exact ⟨_, rfl, effect_access _ (.loaded x _ rfl)⟩
  | drwVxVyN x y n => exact ⟨_, rfl, effect_access _ (.drawn x y n rfl)⟩
  | cls => exact ⟨_, rfl, .cleared rfl⟩
  | ldDtVx x => exact ⟨_, rfl, .delaySet x rfl⟩
  | ldStVx x => exact ⟨_, rfl, .soundSet x rfl⟩
  | unknown w => exact ⟨_, rfl, .reported _ _⟩

/-- What an instruction has done, read off its next state. -/
theorem effect_of_exec {t : State} (h : exec i s = .next t) : Effect i s t := by
  obtain ⟨u, hu, he⟩ := exec_effect i s
  obtain rfl : u = t := Host.Outcome.next.inj (hu.symm.trans h)
  exact he

end Sys2Proof.Machine
end

section
/-! PROOFS. The frames of the state over every instruction (spec 10_state): each follows from `Effect`, shape by
shape. -/

namespace Sys2Proof.Machine

open Sys2Proof.Safety

/-! ## General registers -/

/-- The registers that register-load fills are its destinations (10_state R21, 43_index_memory R185). -/
theorem mem_destRegs_ldVxImem {x r : RegIdx} : r ∈ Instr.destRegs (.ldVxImem x) ↔ r.toNat ≤ x.toNat := by
  simp only [Instr.destRegs, List.mem_map, List.mem_range]
  constructor
  · rintro ⟨k, hk, rfl⟩
    have := x.isLt
    rw [BitVec.toNat_ofNat]; omega
  · exact fun h => ⟨r.toNat, by omega, by rw [BitVec.ofNat_toNat, BitVec.setWidth_eq]⟩

/-- Settles O39: of the shapes that write a register, two write destinations only, one a destination and `VF` as the
flag, and the draw `VF` as the flag. -/
theorem registersChangeOnlyWhereListed : Obligations.RegistersChangeOnlyWhereListed := by
  unfold Obligations.RegistersChangeOnlyWhereListed
  intro i s t r h hr hflag
  cases effect_of_exec h with
  | register x b hx => exact s.reg_setReg_ne b fun e => hr (e ▸ hx)
  | registerAndFlag x b c hx hf =>
    have hrx : r ≠ x := fun e => hr (e ▸ hx)
    have hr15 : r ≠ 15 := fun e => hflag ⟨e, hf⟩
    rw [State.advance_reg, State.reg_setResultAndFlag, if_neg hr15, if_neg hrx]
  | loaded x a hi =>
    subst hi
    rw [State.advance_reg, State.reg_loadRegs, State.loadedReg, if_neg (mem_destRegs_ldVxImem.not.mp hr)]
  | drawn x y n hi =>
    subst hi
    obtain ⟨-, -, -, hregs⟩ := s.afterDraw_spec x y n
    exact hregs r fun e => hflag ⟨e, rfl⟩
  | _ => rfl

/-! ## The index register -/

/-- Settles O40: one shape writes `I`, and only the three instructions have it. -/
theorem indexChangesOnlyInThreeInstructions : Obligations.IndexChangesOnlyInThreeInstructions := by
  unfold Obligations.IndexChangesOnlyInThreeInstructions
  intro i s t h hset hadd hsprite
  cases effect_of_exec h with
  | indexed w hi =>
    obtain ⟨nnn, e⟩ | ⟨x, e⟩ | ⟨x, e⟩ := hi
    · exact absurd e (hset nnn)
    · exact absurd e (hadd x)
    · exact absurd e (hsprite x)
  | _ => rfl

/-! ## The call stack -/

/-- Settles O41: only a call writes an entry, and a return writes `SP` alone. -/
theorem stackChangesOnlyInCallAndReturn : Obligations.StackChangesOnlyInCallAndReturn := by
  unfold Obligations.StackChangesOnlyInCallAndReturn
  intro i s t h hcall
  cases effect_of_exec h with
  | pushed nnn stack sp pc hi => exact absurd hi (hcall nnn)
  | popped sp pc hi => exact ⟨rfl, fun hret => absurd hi hret⟩
  | _ => exact ⟨rfl, fun _ => rfl⟩

/-! ## The screen -/

/-- Settles O42: clear-screen sets `DIRTY`, and draw-sprite only gains it (10_state R34). -/
theorem screenChangesOnlyInClearAndDraw : Obligations.ScreenChangesOnlyInClearAndDraw := by
  unfold Obligations.ScreenChangesOnlyInClearAndDraw
  intro i s t h
  cases effect_of_exec h with
  | cleared hi => exact ⟨fun _ => rfl, fun hcls => absurd hi hcls⟩
  | drawn x y n hi =>
    obtain ⟨-, -, hdirty, -⟩ := s.afterDraw_spec x y n
    refine ⟨fun hd => ?_, fun _ hdraw => absurd hi (hdraw x y n)⟩
    rw [State.advance_dirty, hdirty, hd, Bool.true_or]
  | _ => exact ⟨id, fun _ _ => ⟨fun _ _ => rfl, rfl⟩⟩

/-! ## The inputs and the key mapping -/

/-- Settles O45: no shape writes a field of the host's side. -/
theorem inputsAndKeyMappingAreNeverWritten : Obligations.InputsAndKeyMappingAreNeverWritten := by
  unfold Obligations.InputsAndKeyMappingAreNeverWritten
  intro i s t h
  cases effect_of_exec h <;> exact sameHostSide_refl s

end Sys2Proof.Machine
end

section
/-! PROOFS. The random byte (10_state R45): another value of it passes unread through every instruction but
random-and. -/

namespace Sys2Proof.Machine

variable (s : State) (b : Byte)

/-- The range check looks at `I` only (20_memory R61). -/
theorem State.access_withRnd (n : Nat) {d e : State} (he : e = { d with rnd := b }) :
    State.access { s with rnd := b } n e = { s.access n d with rnd := b } := by
  subst he
  cases h : checkRange s.index n
  · rw [State.access_fault h, State.access_fault (s := { s with rnd := b }) h]
    rfl
  · rw [State.access_ok h, State.access_ok (s := { s with rnd := b }) h]

/-- A key skip looks at its register, `KEYS` and the key mapping only (45_keys_timers R227). -/
theorem State.keySkip_withRnd (x : RegIdx) (want : Bool) :
    State.keySkip { s with rnd := b } x want = { s.keySkip x want with rnd := b } := by
  by_cases h : (s.reg x).toNat > 15
  · rw [State.keySkip_of_above want h, State.keySkip_of_above (s := { s with rnd := b }) want h]
    rfl
  · rw [State.keySkip_of_key want h, State.keySkip_of_key (s := { s with rnd := b }) want h]
    rfl

/-- Only `SP` decides whether a return pops. -/
theorem exec_ret_withRnd :
    ∃ t, exec .ret s = .next t ∧ exec .ret { s with rnd := b } = .next { t with rnd := b } := by
  by_cases h : s.sp = 0
  · exact ⟨_, exec_ret_of_empty h, exec_ret_of_empty h⟩
  · have h := Fin.val_ne_zero_iff.mpr h
    exact ⟨_, exec_ret_of_nonempty h, exec_ret_of_nonempty (s := { s with rnd := b }) h⟩

/-- Only `SP` decides whether a call pushes. -/
theorem exec_callNnn_withRnd (nnn : Addr) :
    ∃ t, exec (.callNnn nnn) s = .next t ∧
      exec (.callNnn nnn) { s with rnd := b } = .next { t with rnd := b } := by
  by_cases h : s.sp = 16
  · exact ⟨_, exec_callNnn_of_full nnn h, exec_callNnn_of_full nnn h⟩
  · have h := s.sp_lt_of_ne h
    exact ⟨_, exec_callNnn_of_room nnn h, exec_callNnn_of_room (s := { s with rnd := b }) nnn h⟩

/-- Only `KEYS` and the key mapping decide which key an await-key takes. -/
theorem exec_ldVxK_withRnd (x : RegIdx) :
    ∃ t, exec (.ldVxK x) s = .next t ∧ exec (.ldVxK x) { s with rnd := b } = .next { t with rnd := b } := by
  cases h : s.firstPressed with
  | none => exact ⟨_, exec_ldVxK_of_none x h, exec_ldVxK_of_none x h⟩
  | some k => exact ⟨_, exec_ldVxK_of_some x h, exec_ldVxK_of_some x h⟩

/-- An instruction with one shape of next state gives that shape in both states, by computation; one with two takes the
same of them in both. -/
theorem exec_withRnd (i : Instr) (hi : ∀ x nn, i ≠ .rndVxNn x nn) :
    ∃ t, exec i s = .next t ∧ exec i { s with rnd := b } = .next { t with rnd := b } := by
  cases i with
  | rndVxNn x nn => exact absurd rfl (hi x nn)
  | ret => exact exec_ret_withRnd s b
  | callNnn nnn => exact exec_callNnn_withRnd s b nnn
  | ldVxK x => exact exec_ldVxK_withRnd s b x
  | skpVx x => exact ⟨_, rfl, congrArg Host.Outcome.next (s.keySkip_withRnd b x true)⟩
  | sknpVx x => exact ⟨_, rfl, congrArg Host.Outcome.next (s.keySkip_withRnd b x false)⟩
  | ldBVx | ldImemVx | ldVxImem | drwVxVyN =>
    exact ⟨_, rfl, congrArg Host.Outcome.next (s.access_withRnd b _ rfl)⟩
  | _ => exact ⟨_, rfl, rfl⟩

/-- Settles O46: the next state from the other random byte is the same one with that byte. -/
theorem onlyRandomAndReadsTheRandomByte : Obligations.OnlyRandomAndReadsTheRandomByte := by
  unfold Obligations.OnlyRandomAndReadsTheRandomByte
  intro i s t b hi h
  obtain ⟨u, hu, hb⟩ := exec_withRnd s b i hi
  obtain rfl : u = t := Host.Outcome.next.inj (hu.symm.trans h)
  exact hb

end Sys2Proof.Machine
end

section
/-! PROOFS. The host's turn at the beginning of a step (10_state R39 to R45, 20_memory R76). -/

namespace Sys2Proof.Machine

/-- With an empty script the turn is the free one of the counter, which moves on (log entry 4). -/
theorem State.hostTurn_free {s : State} (e : s.script = []) :
    s.hostTurn = State.accept { s with draws := s.draws + 1 } (freeTurn s.draws) := by
  simp [State.hostTurn, e]

/-- Settles O8: the turn accepted is the head of the script, or the free one. -/
theorem hostTurnIsTakenWhenTheStepBegins : Obligations.HostTurnIsTakenWhenTheStepBegins := by
  unfold Obligations.HostTurnIsTakenWhenTheStepBegins
  intro s
  exact ⟨rfl, fun _ _ e => s.hostTurn_script e, fun e => State.hostTurn_free e, rfl⟩

end Sys2Proof.Machine
end

section
/-! PROOFS. Memory over every instruction and every step (spec 20_memory): the two stores alone write it, over a span
that was checked. -/

namespace Sys2Proof.Machine

open Sys2Proof.Safety

variable {s : State}

/-- Settles O44: one shape writes memory, over as many bytes as the span has, and only the two stores have it. -/
theorem memoryChangesOnlyInTheTwoStores : Obligations.MemoryChangesOnlyInTheTwoStores := by
  unfold Obligations.MemoryChangesOnlyInTheTwoStores
  intro i s t h
  cases effect_of_exec h with
  | stored bs hi hl =>
    refine ⟨fun a ha => s.byte_store_outside _ bs (hl ▸ ha), fun hbcd hdump => ?_⟩
    obtain ⟨x, e⟩ | ⟨x, e⟩ := hi
    · exact absurd e (hbcd x)
    · exact absurd e (hdump x)
  | _ => exact ⟨fun _ _ => rfl, fun _ _ _ => rfl⟩

/-! ## The canonical form -/

/-- The two stores are checked accesses to as many bytes as they write (43_index_memory R186). -/
theorem exec_of_store {i : Instr} (hi : (∃ x, i = .ldBVx x) ∨ ∃ x, i = .ldImemVx x) (s : State) :
    ∃ bs, exec i s = .next (s.access bs.length (s.store (s.effAddr 0) bs).advance) := by
  obtain ⟨x, rfl⟩ | ⟨x, rfl⟩ := hi
  · exact ⟨bcdDigits (s.reg x), rfl⟩
  · refine ⟨s.regsUpTo x, ?_⟩
    rw [s.length_regsUpTo]
    rfl

/-- A span inside memory keeps the bytes of a store below 4096 (20_memory R61). -/
theorem memoryCanonical_store (hm : MemoryCanonical s) {bs : List Byte}
    (hr : checkRange s.index bs.length = true) : MemoryCanonical (s.store (s.effAddr 0) bs) := by
  obtain ⟨hwf, hin⟩ := hm
  refine ⟨State.wf_store hwf _ bs, Memory.inSpace_writeBytes hin ?_⟩
  obtain h0 | hle := (checkRange_iff _ _).mp hr
  · exact .inl (List.eq_nil_of_length_eq_zero h0)
  · exact .inr (by simp only [State.effAddr]; omega)

/-- A store outside memory is not done at all (20_memory R61). -/
theorem memoryCanonical_access_store (hm : MemoryCanonical s) (bs : List Byte) :
    MemoryCanonical (s.access bs.length (s.store (s.effAddr 0) bs).advance) := by
  obtain ⟨hr, e⟩ | ⟨-, e⟩ := s.access_cases bs.length (s.store (s.effAddr 0) bs).advance <;> rw [e]
  · exact memoryCanonical_store hm hr
  · exact hm

theorem memoryCanonical_of_exec {i : Instr} {t : State} (hm : MemoryCanonical s) (h : exec i s = .next t) :
    MemoryCanonical t := by
  cases effect_of_exec h with
  | stored _ hi _ =>
    obtain ⟨written, e⟩ := exec_of_store hi s
    rw [Host.Outcome.next.inj (h.symm.trans e)]
    exact memoryCanonical_access_store hm written
  | _ => exact hm

/-- The host's turn writes neither memory nor the font (20_memory R76). -/
theorem memoryCanonical_hostTurn (hm : MemoryCanonical s) : MemoryCanonical s.hostTurn := by
  simpa only [MemoryCanonical, State.hostTurn_mem, State.hostTurn_font] using hm

/-- Settles O49: outside the instruction a step writes no memory, and an instruction keeps the form. -/
theorem stepKeepsMemoryCanonical : Obligations.StepKeepsMemoryCanonical := by
  unfold Obligations.StepKeepsMemoryCanonical
  intro s t hm h
  have hturn : MemoryCanonical s.hostTurn := memoryCanonical_hostTurn hm
  have hbegin : MemoryCanonical s.hostTurn.beginStep := hturn
  obtain ⟨-, e⟩ | ⟨-, -, e⟩ | ⟨-, -, -, e⟩ | ⟨-, -, -, e⟩ := step_cases s
  · cases e.symm.trans h
    exact hturn
  · cases e.symm.trans h
    exact hbegin
  · cases e.symm.trans h
    exact hbegin
  · exact memoryCanonical_of_exec hbegin (e.symm.trans h)

/-! ## A register dump, fetched -/

/-- A dump over a span inside memory completes (43_index_memory R184). -/
theorem exec_ldImemVx_of_inside {x : RegIdx} (h : s.index.toNat + x.toNat ≤ 4095) :
    exec (.ldImemVx x) s = .next (s.store (s.effAddr 0) (s.regsUpTo x)).advance := by
  have hr : checkRange s.index (x.toNat + 1) = true := (checkRange_iff _ _).mpr (.inr h)
  exact congrArg Host.Outcome.next (State.access_ok hr _)

/-- Each dumped register reads back at its own place of the span (43_index_memory R184). -/
theorem State.byte_dump (hm : s.mem.wf s.font = true) (a : Nat) {x k : RegIdx} (hk : k.toNat ≤ x.toNat) :
    (s.store a (s.regsUpTo x)).byte (a + k.toNat) = s.reg k := by
  have hlt : k.toNat < (s.regsUpTo x).length := by rw [s.length_regsUpTo]; omega
  rw [State.byte_store_inside hm a _ hlt, s.getElem_regsUpTo x k hk]

/-- Settles O14: the next fetch is at the place of register `k`, which is in range since register `k + 1` still is. -/
theorem storedWordIsFetchedByTheNextStep : Obligations.StoredWordIsFetchedByTheNextStep := by
  unfold Obligations.StoredWordIsFetchedByTheNextStep
  intro s x k k' hm hspan hk' hx hpc heven
  refine ⟨_, exec_ldImemVx_of_inside hspan, ?_⟩
  have hbase : s.effAddr 0 = s.index.toNat := rfl
  have hnext : (s.pc + 2).toNat = s.effAddr 0 + k.toNat := by bv_omega
  have hsucc : s.effAddr 0 + k.toNat + 1 = s.effAddr 0 + k'.toNat := by omega
  have hle : (s.pc + 2).toNat ≤ 0x0FFE := by omega
  have heven' : (s.pc + 2).toNat % 2 = 0 := by omega
  refine (State.fetch_ok hle heven').trans (congrArg Except.ok ?_)
  rw [State.advance_word, State.advance_pc, State.store_pc, hnext, State.word, hsucc,
    State.byte_dump hm _ (by omega), State.byte_dump hm _ hx]

end Sys2Proof.Machine
end

section
/-! PROOFS. The round trips of the encoding (spec 30_encoding R91 to R100): what a word decodes to has that word, and the
word of an instruction decodes to it. -/

namespace Sys2Proof

variable {w : Word}

/-! ## The six sets of R100 by the fields of R91

R100 gives the fields as numbers, the decoder compares them as bit vectors. -/

theorem opOf_eq_iff (k : Nibble) : opOf w = k ↔ w.toNat / 4096 = k.toNat := by
  rw [← BitVec.toNat_inj, toNat_opOf, Nat.mod_eq_of_lt (by omega)]
theorem nOf_eq_iff (k : Nibble) : nOf w = k ↔ w.toNat % 16 = k.toNat := by
  rw [← BitVec.toNat_inj, toNat_nOf]
theorem nnOf_eq_iff (k : Byte) : nnOf w = k ↔ w.toNat % 256 = k.toNat := by
  rw [← BitVec.toNat_inj, toNat_nnOf]
theorem nnnOf_eq_iff (k : Addr) : nnnOf w = k ↔ w.toNat % 4096 = k.toNat := by
  rw [← BitVec.toNat_inj, toNat_nnnOf]

/-- The six sets, in the fields that the decoder compares. -/
theorem unrecognized_iff : unrecognized w = true ↔
    (opOf w = 0x0 ∧ nnnOf w ≠ 0x0E0 ∧ nnnOf w ≠ 0x0EE) ∨
    (opOf w = 0x5 ∧ nOf w ≠ 0x0) ∨
    (opOf w = 0x8 ∧ (nOf w = 0x8 ∨ nOf w = 0x9 ∨ nOf w = 0xA ∨ nOf w = 0xB ∨ nOf w = 0xC ∨ nOf w = 0xD ∨
      nOf w = 0xF)) ∨
    (opOf w = 0x9 ∧ nOf w ≠ 0x0) ∨
    (opOf w = 0xE ∧ nnOf w ≠ 0x9E ∧ nnOf w ≠ 0xA1) ∨
    (opOf w = 0xF ∧ nnOf w ≠ 0x07 ∧ nnOf w ≠ 0x0A ∧ nnOf w ≠ 0x15 ∧ nnOf w ≠ 0x18 ∧ nnOf w ≠ 0x1E ∧
      nnOf w ≠ 0x29 ∧ nnOf w ≠ 0x33 ∧ nnOf w ≠ 0x55 ∧ nnOf w ≠ 0x65) := by
  simp [unrecognized, opOf_eq_iff, nOf_eq_iff, nnOf_eq_iff, nnnOf_eq_iff, or_assoc, and_assoc]

/-! ## Words by their fields -/

theorem layNnn_of_op {op : Nibble} (hop : opOf w = op) : layNnn op (nnnOf w) = w := hop ▸ layNnn_fields w
theorem layXnn_of_op {op : Nibble} (hop : opOf w = op) : layXnn op (xOf w) (nnOf w) = w := hop ▸ layXnn_fields w
theorem layXyn_of_op_n {op n : Nibble} (hop : opOf w = op) (hn : nOf w = n) :
    layXyn op (xOf w) (yOf w) n = w := hop ▸ hn ▸ layXyn_fields w
theorem layXsub_of_op_nn {op : Nibble} {nn : Byte} (hop : opOf w = op) (hnn : nnOf w = nn) :
    layXsub op (xOf w) nn = w := hop ▸ hnn ▸ layXnn_fields w

/-- In group 0 the field `NNN` is the whole word. -/
theorem eq_of_op_zero {nnn : Addr} (hop : opOf w = 0x0) (h : nnnOf w = nnn) : w = layNnn 0x0 nnn :=
  h ▸ (layNnn_of_op hop).symm

/-! ## The word of what is decoded -/

/-- The instruction is well formed and its word is `w`. -/
def Encodes (i : Instr) (w : Word) : Prop := encode i = w ∧ i.wellFormed = true

theorem encodes_unknown (h : unrecognized w = true) : Encodes (.unknown w) w := ⟨rfl, h⟩

/-- A choice of the decoder encodes `w` when both answers do, each under what led to it. -/
theorem encodes_ite {c : Prop} [Decidable c] {i j : Instr} (hi : c → Encodes i w) (hj : ¬c → Encodes j w) :
    Encodes (if c then i else j) w := by
  split
  · exact hi ‹_›
  · exact hj ‹_›

theorem encodes_decodeGroup0 (hop : opOf w = 0x0) : Encodes (decodeGroup0 w) w :=
  encodes_ite (fun h => ⟨h.symm, rfl⟩) fun hcls =>
  encodes_ite (fun h => ⟨h.symm, rfl⟩) fun hret =>
  encodes_unknown <| unrecognized_iff.mpr <|
    .inl ⟨hop, fun h => hcls (eq_of_op_zero hop h), fun h => hret (eq_of_op_zero hop h)⟩

/-- A word of group 8 that no value of the switch on `N` takes lies in the third set of R100. -/
theorem unrecognized_group8 (hop : opOf w = 0x8) (h : 0x7 < nOf w) (hE : nOf w ≠ 0xE) : unrecognized w = true := by
  have hn : nOf w = 0x8 ∨ nOf w = 0x9 ∨ nOf w = 0xA ∨ nOf w = 0xB ∨ nOf w = 0xC ∨ nOf w = 0xD ∨ nOf w = 0xF := by
    bv_omega
  exact unrecognized_iff.mpr (.inr (.inr (.inl ⟨hop, hn⟩)))

theorem encodes_decodeGroup8 (hop : opOf w = 0x8) : Encodes (decodeGroup8 w) w := by
  unfold decodeGroup8
  split_ifs with h0 h1 h2 h3 h4 h5 h6 h7 hE
  case neg => exact encodes_unknown (unrecognized_group8 hop (by bv_omega) hE)
  all_goals exact ⟨layXyn_of_op_n hop ‹_›, rfl⟩

theorem encodes_decodeGroupE (hop : opOf w = 0xE) : Encodes (decodeGroupE w) w :=
  encodes_ite (fun h => ⟨layXsub_of_op_nn hop h, rfl⟩) fun h9E =>
  encodes_ite (fun h => ⟨layXsub_of_op_nn hop h, rfl⟩) fun hA1 =>
  encodes_unknown <| unrecognized_iff.mpr <| .inr <| .inr <| .inr <| .inr <| .inl ⟨hop, h9E, hA1⟩

theorem encodes_decodeGroupF (hop : opOf w = 0xF) : Encodes (decodeGroupF w) w := by
  unfold decodeGroupF
  split_ifs with h07 h0A h15 h18 h1E h29 h33 h55 h65
  case neg =>
    exact encodes_unknown <| unrecognized_iff.mpr <| .inr <| .inr <| .inr <| .inr <| .inr
      ⟨hop, h07, h0A, h15, h18, h1E, h29, h33, h55, h65⟩
  all_goals exact ⟨layXsub_of_op_nn hop ‹_›, rfl⟩

/-- The decoder's switch, branch by branch (R98); what no test takes has `op` 0xF. -/
theorem encodes_decode (w : Word) : Encodes (decode w) w :=
  encodes_ite encodes_decodeGroup0 fun h0 =>
  encodes_ite (fun h => ⟨layNnn_of_op h, rfl⟩) fun h1 =>
  encodes_ite (fun h => ⟨layNnn_of_op h, rfl⟩) fun h2 =>
  encodes_ite (fun h => ⟨layXnn_of_op h, rfl⟩) fun h3 =>
  encodes_ite (fun h => ⟨layXnn_of_op h, rfl⟩) fun h4 =>
  encodes_ite (fun hop => encodes_ite (fun h => ⟨layXyn_of_op_n hop h, rfl⟩) fun hn =>
    encodes_unknown <| unrecognized_iff.mpr <| .inr <| .inl ⟨hop, hn⟩) fun h5 =>
  encodes_ite (fun h => ⟨layXnn_of_op h, rfl⟩) fun h6 =>
  encodes_ite (fun h => ⟨layXnn_of_op h, rfl⟩) fun h7 =>
  encodes_ite encodes_decodeGroup8 fun h8 =>
  encodes_ite (fun hop => encodes_ite (fun h => ⟨layXyn_of_op_n hop h, rfl⟩) fun hn =>
    encodes_unknown <| unrecognized_iff.mpr <| .inr <| .inr <| .inr <| .inl ⟨hop, hn⟩) fun h9 =>
  encodes_ite (fun h => ⟨layNnn_of_op h, rfl⟩) fun hA =>
  encodes_ite (fun h => ⟨layNnn_of_op h, rfl⟩) fun hB =>
  encodes_ite (fun h => ⟨layXnn_of_op h, rfl⟩) fun hC =>
  encodes_ite (fun h => ⟨layXyn_of_op_n h rfl, rfl⟩) fun hD =>
  encodes_ite encodes_decodeGroupE fun hE =>
  encodes_decodeGroupF (by bv_omega)

theorem encode_decode (w : Word) : encode (decode w) = w := (encodes_decode w).1
theorem wellFormed_decode (w : Word) : (decode w).wellFormed = true := (encodes_decode w).2

/-- Settles O3: at every leaf of the decoder's switch the tested fields and the kept ones make up the word, or the
failed tests put it into one of the six sets. -/
theorem encodeOfDecodeIsTheWord : Obligations.EncodeOfDecodeIsTheWord := by
  unfold Obligations.EncodeOfDecodeIsTheWord
  exact encodes_decode

/-! ## The fallback

The six groups that look at a second field (R94) are the ones with an unrecognized word. -/

theorem decode_group0 (hop : opOf w = 0x0) : decode w = decodeGroup0 w := by simp [decode, hop]
theorem decode_group5 (hop : opOf w = 0x5) :
    decode w = if nOf w = 0x0 then .seVxVy (xOf w) (yOf w) else .unknown w := by simp [decode, hop]
theorem decode_group8 (hop : opOf w = 0x8) : decode w = decodeGroup8 w := by simp [decode, hop]
theorem decode_group9 (hop : opOf w = 0x9) :
    decode w = if nOf w = 0x0 then .sneVxVy (xOf w) (yOf w) else .unknown w := by simp [decode, hop]
theorem decode_groupE (hop : opOf w = 0xE) : decode w = decodeGroupE w := by simp [decode, hop]
theorem decode_groupF (hop : opOf w = 0xF) : decode w = decodeGroupF w := by simp [decode, hop]

/-- In each of the six sets every test of the group's switch fails. -/
theorem decode_of_unrecognized (h : unrecognized w = true) : decode w = .unknown w := by
  obtain ⟨hop, hE0, hEE⟩ | ⟨hop, hn⟩ | ⟨hop, hn⟩ | ⟨hop, hn⟩ | ⟨hop, h9E, hA1⟩ |
    ⟨hop, h07, h0A, h15, h18, h1E, h29, h33, h55, h65⟩ := unrecognized_iff.mp h
  · have hcls : w ≠ 0x00E0 := fun e => hE0 (e ▸ rfl)
    have hret : w ≠ 0x00EE := fun e => hEE (e ▸ rfl)
    rw [decode_group0 hop, decodeGroup0, if_neg hcls, if_neg hret]
  · rw [decode_group5 hop, if_neg hn]
  · rw [decode_group8 hop, decodeGroup8]
    obtain hn | hn | hn | hn | hn | hn | hn := hn <;> simp [hn]
  · rw [decode_group9 hop, if_neg hn]
  · rw [decode_groupE hop, decodeGroupE, if_neg h9E, if_neg hA1]
  · rw [decode_groupF hop, decodeGroupF, if_neg h07, if_neg h0A, if_neg h15, if_neg h18, if_neg h1E, if_neg h29,
      if_neg h33, if_neg h55, if_neg h65]

/-- The fallback carries the word that was decoded. -/
theorem eq_of_decode_eq_unknown {v : Word} (h : decode w = .unknown v) : v = w := by
  have hv := encode_decode w
  rwa [h] at hv

theorem unrecognized_of_decode (h : decode w = .unknown w) : unrecognized w = true := by
  have hw := wellFormed_decode w
  rwa [h] at hw

/-- Settles O4: one direction is that what is decoded is well formed, the other that the six sets fail every test; and
the word of the fallback is the one decoded. -/
theorem fallbackIsExactlyTheSixSets : Obligations.FallbackIsExactlyTheSixSets := by
  unfold Obligations.FallbackIsExactlyTheSixSets
  refine fun w => ⟨⟨unrecognized_of_decode, decode_of_unrecognized⟩, ?_⟩
  rintro ⟨v, h⟩
  rw [h, eq_of_decode_eq_unknown h]

/-! ## What an encoded word decodes to -/

/-- Each layout gives its fields back, so the switch takes the instruction's own branch. -/
theorem decode_encode {i : Instr} (hi : i.wellFormed = true) : decode (encode i) = i := by
  cases i with
  | unknown w => exact decode_of_unrecognized hi
  | cls | ret => rfl
  | _ => simp [encode, decode, decodeGroup8, decodeGroupE, decodeGroupF]

theorem decodeBytes_bytesOf (w : Word) : decodeBytes (bytesOf w) = .ok (decode w, []) := by
  rw [bytesOf, decodeBytes, wordOf_bytes]

/-- Settles O2: the fallback by the six sets, every other instruction by the fields of its layout; the two bytes are
the word again (20_memory R62). -/
theorem decodeOfEncodeIsTheInstruction : Obligations.DecodeOfEncodeIsTheInstruction := by
  unfold Obligations.DecodeOfEncodeIsTheInstruction
  intro i hi
  exact ⟨decode_encode hi, by rw [decodeBytes_bytesOf, decode_encode hi]⟩

/-- Settles O1: the decoder computes. -/
theorem sampleWordsDecodeAsTheTableSays : Obligations.SampleWordsDecodeAsTheTableSays := by
  unfold Obligations.SampleWordsDecodeAsTheTableSays
  decide

end Sys2Proof
end

section
/-! PROOFS. The opcode map by mask and match (spec 30_encoding R96, R98): a word selects the row of what it decodes to,
and no other. -/

namespace Sys2Proof

variable {w m : Word}

/-- The row of R96 of an instruction; the fallback has the mask and the match 0. -/
def rowOf (i : Instr) : Word × Word := (maskOf i, matchOf i)

theorem rowMatches_iff {row : Word × Word} : rowMatches w row = true ↔ w &&& row.1 = row.2 := beq_iff_eq

/-! ## What each kind of mask compares -/

theorem opOf_of_rowMatches (h : rowMatches w (0xF000, m) = true) : opOf w = opOf m := by
  have e : layNnn (opOf w) 0 = m := (and_mask_op w).symm.trans (rowMatches_iff.mp h)
  rw [← e, opOf_layNnn]

theorem opOf_nOf_of_rowMatches (h : rowMatches w (0xF00F, m) = true) : opOf w = opOf m ∧ nOf w = nOf m := by
  have e : layXyn (opOf w) 0 0 (nOf w) = m := (and_mask_op_n w).symm.trans (rowMatches_iff.mp h)
  rw [← e, opOf_layXyn, nOf_layXyn]
  exact ⟨rfl, rfl⟩

theorem opOf_nnOf_of_rowMatches (h : rowMatches w (0xF0FF, m) = true) : opOf w = opOf m ∧ nnOf w = nnOf m := by
  have e : layXnn (opOf w) 0 (nnOf w) = m := (and_mask_op_nn w).symm.trans (rowMatches_iff.mp h)
  rw [← e, opOf_layXnn, nnOf_layXnn]
  exact ⟨rfl, rfl⟩

theorem eq_of_rowMatches (h : rowMatches w (0xFFFF, m) = true) : w = m :=
  BitVec.and_allOnes.symm.trans (rowMatches_iff.mp h)

/-! ## No word selects two rows -/

/-- Two rows differ in a bit that both masks keep. -/
theorem opcodeRows_apart : opcodeRows.Pairwise fun r r' => r.2 &&& r'.1 ≠ r'.2 &&& r.1 := by decide

/-- Two rows that one word selects agree in every bit that both masks keep. -/
theorem and_mask_of_rowMatches {r r' : Word × Word} (h : rowMatches w r = true) (h' : rowMatches w r' = true) :
    r.2 &&& r'.1 = r'.2 &&& r.1 := by
  rw [← rowMatches_iff.mp h, ← rowMatches_iff.mp h', BitVec.and_assoc, BitVec.and_assoc, BitVec.and_comm r.1]

/-- Settles O5: two selected rows would agree and differ in one bit. -/
theorem opcodeRowsAreDisjoint : Obligations.OpcodeRowsAreDisjoint := by
  unfold Obligations.OpcodeRowsAreDisjoint
  refine ⟨rfl, fun w => ?_⟩
  have happart := opcodeRows_apart.filter (rowMatches w)
  have hsel : ∀ r ∈ opcodeRows.filter (rowMatches w), rowMatches w r = true := fun r hr => List.of_mem_filter hr
  match opcodeRows.filter (rowMatches w), happart, hsel with
  | [], _, _ | [_], _, _ => simp
  | r :: r' :: _, happart, hsel =>
    have hne := List.rel_of_pairwise_cons happart (List.mem_cons_self ..)
    exact absurd (and_mask_of_rowMatches (hsel r (by simp)) (hsel r' (by simp))) hne

/-! ## The decoder selects the row -/

/-- The dispatch structure of R94: what the mask of a row keeps, by the `op` of its match. -/
theorem mask_of_mem_opcodeRows : ∀ row ∈ opcodeRows, row.1 = 0xFFFF ∨
    (row.1 = 0xF000 ∧ opOf row.2 ∈ [0x1, 0x2, 0x3, 0x4, 0x6, 0x7, 0xA, 0xB, 0xC, 0xD]) ∨
    (row.1 = 0xF00F ∧ opOf row.2 ∈ [0x5, 0x8, 0x9]) ∨
    (row.1 = 0xF0FF ∧ opOf row.2 ∈ [0xE, 0xF]) := by
  simp [opcodeRows, opOf]

theorem unrecognized_match : ∀ row ∈ opcodeRows, unrecognized row.2 = false := by
  simp [opcodeRows, unrecognized]

/-- The six sets of R100 look at no other bits than the mask keeps. -/
theorem unrecognized_eq_of_rowMatches {row : Word × Word} (hrow : row ∈ opcodeRows)
    (h : rowMatches w row = true) : unrecognized w = unrecognized row.2 := by
  have hmask := mask_of_mem_opcodeRows row hrow
  obtain ⟨mask, m⟩ := row
  simp only [List.mem_cons, List.not_mem_nil, or_false] at hmask
  rw [Bool.eq_iff_iff]
  obtain rfl | ⟨rfl, hm⟩ | ⟨rfl, hm⟩ | ⟨rfl, hm⟩ := hmask
  · rw [eq_of_rowMatches h]
  · have hop := opOf_of_rowMatches h
    obtain hm | hm | hm | hm | hm | hm | hm | hm | hm | hm := hm <;> simp [unrecognized_iff, hop, hm]
  · obtain ⟨hop, hn⟩ := opOf_nOf_of_rowMatches h
    obtain hm | hm | hm := hm <;> simp [unrecognized_iff, hop, hn, hm]
  · obtain ⟨hop, hnn⟩ := opOf_nnOf_of_rowMatches h
    obtain hm | hm := hm <;> simp [unrecognized_iff, hop, hnn, hm]

/-- The row of an instruction stands in the table. -/
theorem rowOf_mem_opcodeRows {i : Instr} (hi : ∀ v, i ≠ .unknown v) : rowOf i ∈ opcodeRows := by
  cases i with
  | unknown v => exact absurd rfl (hi v)
  | _ => simp [rowOf, maskOf, matchOf, opcodeRows]

open Laws.OpcodeRow in
/-- The word of a well-formed instruction selects its row, whichever instruction it is. -/
theorem rowMatches_encode (i : Instr) : Statement i := by
  cases i with
  | cls => exact cls
  | ret => exact ret
  | unknown w => exact unknown w
  | jpNnn | callNnn | ldINnn | jpV0Nnn => exact of_mask (row_nnn ..)
  | seVxNn | sneVxNn | ldVxNn | addVxNn | rndVxNn => exact of_mask (row_xnn ..)
  | drwVxVyN => exact of_mask (row_xyn ..)
  | seVxVy | sneVxVy | ldVxVy | orVxVy | andVxVy | xorVxVy | addVxVy | subVxVy | shrVx | subnVxVy | shlVx =>
    exact of_mask (row_xy ..)
  | skpVx | sknpVx | ldVxDt | ldVxK | ldDtVx | ldStVx | addIVx | ldFVx | ldBVx | ldImemVx | ldVxImem =>
    exact of_mask (row_x ..)

theorem rowMatches_decode (w : Word) : rowMatches w (rowOf (decode w)) = true := by
  have h := rowMatches_encode (decode w) (wellFormed_decode w)
  rwa [encode_decode] at h

/-- Settles O6: a decoded instruction selects its own row, and a word of the six sets selects none. -/
theorem decodeFollowsTheMaskAndMatchTable : Obligations.DecodeFollowsTheMaskAndMatchTable := by
  unfold Obligations.DecodeFollowsTheMaskAndMatchTable
  refine fun w => ⟨rowMatches_decode w, fun h => ?_, fun h => ?_⟩
  · refine List.filter_eq_nil_iff.mpr fun row hrow hsel => ?_
    have hm := unrecognized_eq_of_rowMatches hrow hsel
    rw [unrecognized_of_decode h, unrecognized_match row hrow] at hm
    cases hm
  · by_contra hne
    have hknown : ∀ v, decode w ≠ .unknown v := fun v hv => hne (eq_of_decode_eq_unknown hv ▸ hv)
    exact List.filter_eq_nil_iff.mp h _ (rowOf_mem_opcodeRows hknown) (rowMatches_decode w)

end Sys2Proof
end

section
/-! PROOFS. The timers (spec 40_step_cycle R121, R124): the service counts them down, and two instructions set them. -/

namespace Sys2Proof.Machine

variable {s : State}

theorem State.timerService_idle (h : s.tick = false) : s.timerService = s := by
  have hidle : ¬ s.tick = true := by simp [h]
  simp only [State.timerService, if_neg hidle]

theorem State.timerService_dt_ticked (h : s.tick = true) : s.timerService.dt = countDown s.dt := by
  rw [State.timerService_dt, if_pos h]

theorem State.timerService_st_ticked (h : s.tick = true) : s.timerService.st = countDown s.st := by
  rw [State.timerService_st, if_pos h]

/-- `AUDIO` is judged by the sound timer after the decrement (R121). -/
theorem State.timerService_audio_ticked (h : s.tick = true) :
    s.timerService.audio = decide (s.timerService.st ≠ 0) := by
  rw [State.timerService_audio, if_pos h, State.timerService_st_ticked h]

/-- Settles O10: a tick takes `countDown` of both timers, and a running step begins with the service. -/
theorem timerServiceCountsDownOnATick : Obligations.TimerServiceCountsDownOnATick := by
  unfold Obligations.TimerServiceCountsDownOnATick
  refine fun s => ⟨fun h => ⟨?_, ?_, ?_⟩, State.timerService_idle, rfl, engineStep_running⟩
  · rw [State.timerService_dt_ticked h, toNat_countDown]
  · rw [State.timerService_st_ticked h, toNat_countDown]
  · rw [State.timerService_audio_ticked h, decide_eq_true_iff, ne_eq, ne_eq, BitVec.toNat_eq]
    rfl

/-- Settles O43: one shape writes `DT` and one `ST`, each of one instruction, and none writes `AUDIO`. -/
theorem timersChangeOnlyInTimerSets : Obligations.TimersChangeOnlyInTimerSets := by
  unfold Obligations.TimersChangeOnlyInTimerSets
  intro i s t h
  cases effect_of_exec h with
  | delaySet x hi => exact ⟨rfl, fun hdelay => absurd hi (hdelay x), fun _ => rfl⟩
  | soundSet x hi => exact ⟨rfl, fun _ => rfl, fun hsound => absurd hi (hsound x)⟩
  | _ => exact ⟨rfl, fun _ => rfl, fun _ => rfl⟩

end Sys2Proof.Machine
end

section
/-! PROOFS. The step (spec 40_step_cycle R120, R131): every step answers a next state, a running one runs the decoded
instruction, and a halted one changes nothing. -/

namespace Sys2Proof.Machine

open Sys2Proof.Safety

variable {s t u : State}

/-! ## Every step -/

theorem exec_answers_next (i : Instr) (s : State) : ∃ t, exec i s = .next t := by
  obtain ⟨t, ht, -⟩ := exec_effect i s
  exact ⟨t, ht⟩

theorem step_answers_next (s : State) : ∃ t, step s = .next t := by
  obtain ⟨-, e⟩ | ⟨-, -, e⟩ | ⟨-, -, -, e⟩ | ⟨-, -, -, e⟩ := step_cases s
  · exact ⟨_, e⟩
  · exact ⟨_, e⟩
  · exact ⟨_, e⟩
  · rw [e]
    exact exec_answers_next _ _

/-- Settles O13: the step ends by itself or in an instruction, and each instruction has a shape of next state. -/
theorem everyStepAnswersANextState : Obligations.EveryStepAnswersANextState := by
  unfold Obligations.EveryStepAnswersANextState
  exact ⟨step_answers_next, exec_answers_next⟩

/-! ## A running engine -/

theorem step_running (h : s.fault.cause = .noFault) (hpc : Fetchable s.pc) :
    step s = exec (decode (s.word s.pc.toNat)) s.hostTurn.beginStep := by
  obtain ⟨hle, heven⟩ := hpc
  obtain ⟨hf, -⟩ | ⟨-, hlt, -⟩ | ⟨-, -, hodd, -⟩ | ⟨-, -, -, e⟩ := step_cases s
  · exact absurd h hf
  · omega
  · omega
  · exact e

/-- The two bytes at an address decode as the word there (20_memory R62). -/
theorem decodeBytes_bytes (s : State) (a : Nat) : decodeBytes (s.bytes a 2) = .ok (decode (s.word a), []) := rfl

/-- What stands before the fetch changes no engine state but the timers, `AUDIO`, `DIRTY` and the report. -/
theorem beginStep_hostTurn_frame (s : State) :
    (∀ r, s.hostTurn.beginStep.reg r = s.reg r) ∧ s.hostTurn.beginStep.index = s.index ∧
    s.hostTurn.beginStep.pc = s.pc ∧ SameStack s s.hostTurn.beginStep ∧ SameBytes s s.hostTurn.beginStep ∧
    SamePixels s s.hostTurn.beginStep ∧ s.hostTurn.beginStep.fault = s.fault ∧
    s.hostTurn.beginStep.keymap = s.keymap ∧ s.hostTurn.beginStep.report = ⟨false, 0, 0, false⟩ ∧
    (s.hostTurn.beginStep.dirty = true → s.dirty = true) :=
  ⟨s.hostTurn_reg, s.hostTurn_index, s.hostTurn_pc, ⟨s.hostTurn_sp, s.hostTurn_stack⟩, s.hostTurn_byte,
    s.hostTurn_pixel, s.hostTurn_fault, s.hostTurn_keymap, rfl, s.dirty_of_hostTurn_dirty⟩

/-- Settles O7: the word at `PC` is the word of the two bytes, and the host's turn does not move it. -/
theorem stepRunsTheDecodedInstruction : Obligations.StepRunsTheDecodedInstruction := by
  unfold Obligations.StepRunsTheDecodedInstruction
  intro s i h hpc hdecode
  rw [decodeBytes_bytes] at hdecode
  cases hdecode
  exact ⟨step_running h hpc, beginStep_hostTurn_frame s⟩

/-! ## A halted engine -/

theorem step_halted (h : s.fault.cause ≠ .noFault) : step s = .next s.hostTurn := by
  rw [step, engineStep_halted (by rwa [State.hostTurn_fault])]

/-- Settles O9: what is left of the step is the host's turn. -/
theorem haltedStepDoesNothing : Obligations.HaltedStepDoesNothing := by
  unfold Obligations.HaltedStepDoesNothing
  exact fun s h => ⟨engineStep_halted h, s.hostTurn, step_halted h, sameEngine_hostTurn s, s.hostTurn_report⟩

theorem sameEngine_trans (h : SameEngine s t) (h' : SameEngine t u) : SameEngine s u := by
  obtain ⟨hreg, hindex, hpc, ⟨hsp, hstack⟩, hbyte, hpixel, ⟨hdt, hst, haudio⟩, hfault, hkeymap, hdirty⟩ := h
  obtain ⟨hreg', hindex', hpc', ⟨hsp', hstack'⟩, hbyte', hpixel', ⟨hdt', hst', haudio'⟩, hfault', hkeymap',
    hdirty'⟩ := h'
  exact ⟨fun r hr => (hreg' r hr).trans (hreg r hr), hindex'.trans hindex, hpc'.trans hpc,
    ⟨hsp'.trans hsp, hstack'.trans hstack⟩, fun a => (hbyte' a).trans (hbyte a),
    fun y x => (hpixel' y x).trans (hpixel y x), ⟨hdt'.trans hdt, hst'.trans hst, haudio'.trans haudio⟩,
    hfault'.trans hfault, hkeymap'.trans hkeymap, hdirty ∘ hdirty'⟩

/-- Settles O55, by induction on the number of steps: each is one host's turn, which leaves the engine halted. -/
theorem haltedEngineStaysHalted : Obligations.HaltedEngineStaysHalted := by
  unfold Obligations.HaltedEngineStaysHalted
  intro n
  induction n with
  | zero => exact fun s _ => ⟨s, rfl, sameEngine_refl s, rfl⟩
  | succ n ih =>
    intro s h
    have hturn : s.hostTurn.fault.cause ≠ .noFault := by rwa [State.hostTurn_fault]
    obtain ⟨t, hrun, hsame, hreport⟩ := ih s.hostTurn hturn
    exact ⟨t, (core_run_succ s n _ (step_halted h)).trans hrun, sameEngine_trans (sameEngine_hostTurn s) hsame,
      hreport.trans s.hostTurn_report⟩

end Sys2Proof.Machine
end

section
/-! PROOFS. The program-counter policies (spec 40_step_cycle R130), instruction by instruction. -/

namespace Sys2Proof.Machine

open Sys2Proof.Safety

/-- `PC` of `t` is the one the policy table gives the instruction `i` begun in `s`, or `pc0` when `i` faults. -/
def FollowsPolicy (i : Instr) (s t : State) : Prop :=
  t.pc = if faultOf i s = none then pcAfter i s else s.pc

variable {i : Instr} {s t : State}

theorem followsPolicy_of_completes (hf : faultOf i s = none) (hpc : t.pc = pcAfter i s) : FollowsPolicy i s t :=
  hpc.trans (if_pos hf).symm

/-- A fault leaves `PC` at `pc0` (60_exceptions R260). -/
theorem followsPolicy_raise {f : FaultCause × Word} (hf : faultOf i s = some f) (c : FaultCause) (info : Word) :
    FollowsPolicy i s (s.raise c info) :=
  (if_neg (by simp [hf])).symm

/-! ## The instructions that can end in two ways -/

/-- An instruction that accesses its span faults exactly when the span is not inside memory (20_memory R61). -/
theorem followsPolicy_access {d : State}
    (hf : faultOf i s = if SpanOutside i s then some (.dataBounds, s.index) else none)
    (hpc : d.pc = pcAfter i s) : FollowsPolicy i s (s.access (Instr.span i) d) := by
  obtain ⟨hr, e⟩ | ⟨hr, e⟩ := s.access_cases (Instr.span i) d <;> rw [e]
  · have hin : ¬ SpanOutside i s := by rw [spanOutside_iff, hr]; exact Bool.noConfusion
    exact followsPolicy_of_completes (hf.trans (if_neg hin)) hpc
  · exact followsPolicy_raise (hf.trans (if_pos ((spanOutside_iff s i).mpr hr))) _ _

/-- A key skip faults exactly when its register is above 15 (45_keys_timers R227). -/
theorem followsPolicy_keySkip {x : RegIdx} {want : Bool}
    (hf : faultOf i s = if 15 < (s.reg x).toNat then some (.keyIndexRange, zextByte (s.reg x)) else none)
    (hpc : (s.skipIf (s.pressed (keyOf (s.reg x)) == want)).pc = pcAfter i s) :
    FollowsPolicy i s (s.keySkip x want) := by
  by_cases h : (s.reg x).toNat > 15
  · rw [State.keySkip_of_above want h]
    exact followsPolicy_raise (hf.trans (if_pos h)) _ _
  · rw [State.keySkip_of_key want h]
    exact followsPolicy_of_completes (hf.trans (if_neg h)) hpc

theorem pcAfter_skpVx (x : RegIdx) (s : State) :
    (s.skipIf (s.pressed (keyOf (s.reg x)) == true)).pc = pcAfter (.skpVx x) s := by
  rw [State.skipIf_pc, pcAfter, keyOf_eq_ofNat, beq_true]

theorem pcAfter_sknpVx (x : RegIdx) (s : State) :
    (s.skipIf (s.pressed (keyOf (s.reg x)) == false)).pc = pcAfter (.sknpVx x) s := by
  rw [State.skipIf_pc, pcAfter, keyOf_eq_ofNat]
  cases s.pressed (BitVec.ofNat 4 (s.reg x).toNat) <;> rfl

theorem exec_ret_followsPolicy (s : State) : ∃ t, exec .ret s = .next t ∧ FollowsPolicy .ret s t := by
  by_cases h : s.sp = 0
  · have hf : faultOf .ret s = some (.stackUnderflow, 0) := if_pos h
    exact ⟨_, exec_ret_of_empty h, followsPolicy_raise hf _ _⟩
  · have hval := Fin.val_ne_zero_iff.mpr h
    refine ⟨_, exec_ret_of_nonempty hval, followsPolicy_of_completes (if_neg h) ?_⟩
    have hlt : s.sp.val - 1 < s.stack.toList.length := by rw [Vector.length_toList]; omega
    rw [pcAfter, List.getD_eq_getElem _ _ hlt, Vector.getElem_toList]

theorem exec_callNnn_followsPolicy (nnn : Addr) (s : State) :
    ∃ t, exec (.callNnn nnn) s = .next t ∧ FollowsPolicy (.callNnn nnn) s t := by
  by_cases h : s.sp = 16
  · have hf : faultOf (.callNnn nnn) s = some (.stackOverflow, zextAddr nnn) := if_pos h
    exact ⟨_, exec_callNnn_of_full nnn h, followsPolicy_raise hf _ _⟩
  · exact ⟨_, exec_callNnn_of_room nnn (s.sp_lt_of_ne h),
      followsPolicy_of_completes (if_neg h) (zextAddr_eq_ofNat nnn)⟩

/-- The scan finds a key exactly when some virtual key is pressed (45_keys_timers R222). -/
theorem exec_ldVxK_followsPolicy (x : RegIdx) (s : State) :
    ∃ t, exec (.ldVxK x) s = .next t ∧ FollowsPolicy (.ldVxK x) s t := by
  cases h : s.firstPressed with
  | none =>
    have hup : ¬ ∃ k : Fin 16, s.pressed (BitVec.ofFin k) = true := fun ⟨k, hk⟩ =>
      Bool.false_ne_true ((s.firstPressed_none_iff.mp h _).symm.trans hk)
    exact ⟨_, exec_ldVxK_of_none x h, followsPolicy_of_completes rfl (if_neg hup).symm⟩
  | some k =>
    have hdown : ∃ k : Fin 16, s.pressed (BitVec.ofFin k) = true := ⟨k.toFin, List.find?_some h⟩
    exact ⟨_, exec_ldVxK_of_some x h, followsPolicy_of_completes rfl (if_pos hdown).symm⟩

/-! ## Every instruction -/

/-- Jump-with-offset adds before it truncates, the table after (41_control_flow R143). -/
theorem pcAfter_jpV0Nnn (nnn : Addr) (s : State) :
    zextAddr nnn + zextByte (s.reg 0) = pcAfter (.jpV0Nnn nnn) s := by
  rw [pcAfter, zextAddr_eq_ofNat, zextByte_eq_ofNat, BitVec.ofNat_add]

theorem exec_followsPolicy (i : Instr) (s : State) : ∃ t, exec i s = .next t ∧ FollowsPolicy i s t := by
  cases i with
  | ret => exact exec_ret_followsPolicy s
  | callNnn nnn => exact exec_callNnn_followsPolicy nnn s
  | ldVxK x => exact exec_ldVxK_followsPolicy x s
  | skpVx x => exact ⟨_, rfl, followsPolicy_keySkip rfl (pcAfter_skpVx x s)⟩
  | sknpVx x => exact ⟨_, rfl, followsPolicy_keySkip rfl (pcAfter_sknpVx x s)⟩
  | ldBVx | ldImemVx | ldVxImem | drwVxVyN => exact ⟨_, rfl, followsPolicy_access rfl rfl⟩
  | jpNnn nnn => exact ⟨_, rfl, followsPolicy_of_completes rfl (zextAddr_eq_ofNat nnn)⟩
  | jpV0Nnn nnn => exact ⟨_, rfl, followsPolicy_of_completes rfl (pcAfter_jpV0Nnn nnn s)⟩
  | seVxNn | seVxVy | sneVxNn | sneVxVy => exact ⟨_, rfl, followsPolicy_of_completes rfl (by simp [pcAfter])⟩
  | _ => exact ⟨_, rfl, followsPolicy_of_completes rfl rfl⟩

/-- Settles O47: every instruction ends in a state that follows its policy, and it has one outcome. -/
theorem programCounterPolicies : Obligations.ProgramCounterPolicies := by
  unfold Obligations.ProgramCounterPolicies
  intro i s t h
  obtain ⟨u, hu, hpc⟩ := exec_followsPolicy i s
  obtain rfl : u = t := Host.Outcome.next.inj (hu.symm.trans h)
  exact hpc

end Sys2Proof.Machine
end

section
/-! PROOFS. The control-flow instructions (spec 41_control_flow): jumps, call and the register skips. -/

namespace Sys2Proof.Machine

open Sys2Proof.Safety

variable {s : State}

/-! ## Jumps -/

/-- The sum of jump-with-offset is at most 0x10FE, so it does not wrap (41_control_flow R143). -/
theorem toNat_zextAddr_add_zextByte (nnn : Addr) (b : Byte) :
    (zextAddr nnn + zextByte b).toNat = nnn.toNat + b.toNat := by
  have hsum : nnn.toNat + b.toNat < 2 ^ 16 := by omega
  rw [BitVec.toNat_add, toNat_zextAddr, toNat_zextByte, Nat.mod_eq_of_lt hsum]

/-- Settles O18: both instructions are one `jumpTo`, whose target as a number is the unmasked one. -/
theorem jumpsWriteTheirTargetUnmasked : Obligations.JumpsWriteTheirTargetUnmasked := by
  unfold Obligations.JumpsWriteTheirTargetUnmasked
  intro nnn s
  exact ⟨⟨_, rfl, toNat_zextAddr nnn, onlyRegs_jumpTo s _⟩,
    ⟨_, rfl, toNat_zextAddr_add_zextByte nnn (s.reg 0), onlyRegs_jumpTo s _⟩⟩

/-! ## Call -/

/-- The entry at the old `SP` is the pushed one and every other is as it was (10_state R29). -/
theorem State.getElem_stack_set (s : State) (a : Word) (h : s.sp.val < 16) (k : Fin 16) :
    (s.stack.set s.sp.val a h)[k] = if k.val = s.sp.val then a else s.stack[k] := by
  simp only [Fin.getElem_fin, Vector.getElem_set, eq_comm]

theorem onlyStack_set (s : State) (pc : Word) (stack : Vector Word 16) (sp : Fin 17) :
    OnlyStack s { s with pc := pc, stack := stack, sp := sp } :=
  ⟨fun _ _ => rfl, rfl, fun _ => rfl, fun _ _ => rfl, rfl, sameTimers_refl s, rfl, rfl, sameHostSide_refl s⟩

/-- Settles O19: with room a call is one push and a jump, and with 16 entries in use it is the fault. -/
theorem callPushesTheReturnAddress : Obligations.CallPushesTheReturnAddress := by
  unfold Obligations.CallPushesTheReturnAddress
  refine fun nnn s => ⟨fun hroom => ?_, fun hfull => ?_⟩
  · exact ⟨_, exec_callNnn_of_room nnn hroom, toNat_zextAddr nnn, rfl, s.getElem_stack_set _ hroom,
      onlyStack_set s _ _ _⟩
  · rw [TakesFault, ← zextAddr_eq_ofNat]
    exact exec_callNnn_of_full nnn (Fin.ext hfull)

/-! ## Register skips -/

/-- An instruction that is one `skipIf` on a condition adds 4 or 2 to `PC` by it and writes nothing else
(40_step_cycle R130). -/
theorem exec_skipIf_spec {i : Instr} {c : Prop} [Decidable c] (h : exec i s = .next (s.skipIf (decide c))) :
    ∃ t, exec i s = .next t ∧ t.pc = (if c then s.pc + 4 else s.pc + 2) ∧ OnlyRegs [] s t := by
  refine ⟨_, h, ?_, onlyRegs_skipIf s _⟩
  simp only [State.skipIf_pc, decide_eq_true_eq]

/-- Settles O22: each of the four is one `skipIf` on its own condition. -/
theorem registerSkipsAddFourOrTwo : Obligations.RegisterSkipsAddFourOrTwo := by
  unfold Obligations.RegisterSkipsAddFourOrTwo
  exact fun x y nn s =>
    ⟨exec_skipIf_spec rfl, exec_skipIf_spec rfl, exec_skipIf_spec rfl, exec_skipIf_spec rfl⟩

end Sys2Proof.Machine
end

section
/-! PROOFS. Control flow over every step (41_control_flow R140, 10_state R25): the call stack holds return addresses,
and `PC` is at most 0x10FE. -/

namespace Sys2Proof.Machine

open Sys2Proof.Safety

/-- What a call at a fetchable address pushes: an even value in 0x0002 to 0x1000 (41_control_flow R140). -/
def IsReturnAddress (a : Word) : Prop := a.toNat % 2 = 0 ∧ 2 ≤ a.toNat ∧ a.toNat ≤ 0x1000

/-- Every entry of the call stack in use is a return address. -/
def StackSound (s : State) : Prop := ∀ k : Fin 16, k.val < s.sp.val → IsReturnAddress s.stack[k]

theorem controlSound_iff (s : State) : ControlSound s ↔ StackSound s ∧ s.pc.toNat ≤ 0x10FE := Iff.rfl

variable {i : Instr} {s t : State}

/-! ## The call stack -/

theorem isReturnAddress_pc_add_two (h : Fetchable s.pc) : IsReturnAddress (s.pc + 2) := by
  obtain ⟨hle, heven⟩ := h
  have hnext : (s.pc + 2).toNat = s.pc.toNat + 2 := by bv_omega
  rw [IsReturnAddress, hnext]
  omega

/-- Fewer entries in use of the same stack are sound with the rest. -/
theorem stackSound_of_sp_le (hs : StackSound s) (hstack : t.stack = s.stack) (hsp : t.sp.val ≤ s.sp.val) :
    StackSound t := by
  intro k hk
  rw [hstack]
  exact hs k (hk.trans_le hsp)

theorem stackSound_of_sameStack (hs : StackSound s) (h : SameStack s t) : StackSound t := by
  obtain ⟨hsp, hstack⟩ := h
  exact stackSound_of_sp_le hs hstack (Fin.le_of_eq hsp)

/-- A return gives up the top entry, or faults (41_control_flow R140). -/
theorem stackSound_of_exec_ret (hs : StackSound s) (h : exec .ret s = .next t) : StackSound t := by
  by_cases hsp : s.sp = 0
  · cases (exec_ret_of_empty hsp).symm.trans h
    exact hs
  · cases (exec_ret_of_nonempty (Fin.val_ne_zero_iff.mpr hsp)).symm.trans h
    exact stackSound_of_sp_le hs rfl (Nat.sub_le _ 1)

/-- A call adds the address after itself to the entries, or faults (41_control_flow R142). -/
theorem stackSound_of_exec_callNnn (hs : StackSound s) (hpc : Fetchable s.pc) {nnn : Addr}
    (h : exec (.callNnn nnn) s = .next t) : StackSound t := by
  by_cases hfull : s.sp = 16
  · cases (exec_callNnn_of_full nnn hfull).symm.trans h
    exact hs
  · have hroom := s.sp_lt_of_ne hfull
    cases (exec_callNnn_of_room nnn hroom).symm.trans h
    intro k (hk : k.val < s.sp.val + 1)
    rw [s.getElem_stack_set _ hroom]
    split
    · exact isReturnAddress_pc_add_two hpc
    · exact hs k (by omega)

/-- Call and return alone write the call stack (10_state R28, R29). -/
theorem stackSound_of_exec (hs : StackSound s) (hpc : Fetchable s.pc) (h : exec i s = .next t) :
    StackSound t := by
  cases effect_of_exec h with
  | pushed nnn stack sp pc hi =>
    subst hi
    exact stackSound_of_exec_callNnn hs hpc h
  | popped sp pc hi =>
    subst hi
    exact stackSound_of_exec_ret hs h
  | _ => exact hs

/-! ## The program counter -/

/-- The popped entry is in use when the stack is not empty. -/
theorem isReturnAddress_pcAfter_ret (hs : StackSound s) (hsp : s.sp ≠ 0) : IsReturnAddress (pcAfter .ret s) := by
  have hval := Fin.val_ne_zero_iff.mpr hsp
  have hlt : s.sp.val - 1 < s.stack.toList.length := by rw [Vector.length_toList]; omega
  rw [pcAfter, List.getD_eq_getElem _ _ hlt, Vector.getElem_toList]
  exact hs ⟨s.sp.val - 1, by omega⟩ (Nat.sub_one_lt hval)

theorem toNat_ite_le {n : Nat} {a b : Word} (c : Prop) [Decidable c] (ha : a.toNat ≤ n) (hb : b.toNat ≤ n) :
    (if c then a else b).toNat ≤ n := by
  split
  · exact ha
  · exact hb

/-- The largest `PC` is that of a jump-with-offset from 0xFFF by 0xFF (10_state R25). -/
theorem toNat_pcAfter_le (hs : StackSound s) (hpc : Fetchable s.pc) (hf : faultOf i s = none) :
    (pcAfter i s).toNat ≤ 0x10FE := by
  obtain ⟨hle, -⟩ := hpc
  have hstay : s.pc.toNat ≤ 0x10FE := by omega
  have hnext : (s.pc + 2).toNat ≤ 0x10FE := by bv_omega
  have hskip : (s.pc + 4).toNat ≤ 0x10FE := by bv_omega
  cases i with
  | ret =>
    have hsp : s.sp ≠ 0 := fun h => Option.some_ne_none _ ((if_pos h).symm.trans hf)
    obtain ⟨-, -, hpop⟩ := isReturnAddress_pcAfter_ret hs hsp
    omega
  | jpNnn nnn | callNnn nnn =>
    rw [pcAfter, ← zextAddr_eq_ofNat, toNat_zextAddr]
    omega
  | jpV0Nnn nnn =>
    rw [← pcAfter_jpV0Nnn, toNat_zextAddr_add_zextByte]
    omega
  | seVxNn | seVxVy | skpVx => exact toNat_ite_le _ hskip hnext
  | sneVxNn | sneVxVy | sknpVx => exact toNat_ite_le _ hnext hskip
  | ldVxK => exact toNat_ite_le _ hnext hstay
  | _ => exact hnext

/-! ## Every step -/

theorem controlSound_of_exec (hs : ControlSound s) (hpc : Fetchable s.pc) (h : exec i s = .next t) :
    ControlSound t := by
  obtain ⟨hstack, hle⟩ := (controlSound_iff s).mp hs
  refine (controlSound_iff t).mpr ⟨stackSound_of_exec hstack hpc h, ?_⟩
  rw [programCounterPolicies i s t h]
  split
  case isTrue hf => exact toNat_pcAfter_le hstack hpc hf
  case isFalse => exact hle

/-- The host's turn writes neither the call stack nor `PC` (10_state R39 to R45). -/
theorem controlSound_hostTurn (hs : ControlSound s) : ControlSound s.hostTurn := by
  obtain ⟨hstack, hle⟩ := (controlSound_iff s).mp hs
  exact ⟨stackSound_of_sameStack hstack ⟨s.hostTurn_sp, s.hostTurn_stack⟩, by rwa [State.hostTurn_pc]⟩

/-- Settles O50: outside the instruction a step writes neither the stack nor `PC`, and an instruction begun at a
fetchable address keeps both in bounds. -/
theorem stepKeepsReturnAddressesSound : Obligations.StepKeepsReturnAddressesSound := by
  unfold Obligations.StepKeepsReturnAddressesSound
  intro s t hs h
  have hturn : ControlSound s.hostTurn := controlSound_hostTurn hs
  have hbegin : ControlSound s.hostTurn.beginStep := hturn
  obtain ⟨-, e⟩ | ⟨-, -, e⟩ | ⟨-, -, -, e⟩ | ⟨-, hle, heven, e⟩ := step_cases s
  · cases e.symm.trans h
    exact hturn
  · cases e.symm.trans h
    exact hbegin
  · cases e.symm.trans h
    exact hbegin
  · have hpc : Fetchable s.hostTurn.beginStep.pc := by
      rw [State.beginStep_pc, State.hostTurn_pc]
      exact ⟨hle, heven⟩
    exact controlSound_of_exec hbegin hpc (e.symm.trans h)

end Sys2Proof.Machine
end

section
/-! PROOFS. Loads, arithmetic, logic, shifts and random (spec 42_load_alu): what one register write and one write of a
result and a flag leave, and the results and flags as numbers. -/

namespace Sys2Proof.Machine

open Sys2Proof.Safety

variable {s : State} {i : Instr} {x : RegIdx} {b : Byte} {p : Byte → Prop}

/-! ## The two shapes of next state -/

/-- An instruction that is one register write, of a byte with the property, meets its specification. -/
theorem writesReg_of_exec (h : exec i s = .next (s.setReg x b).advance) (hp : p b) : WritesReg i s x p := by
  refine ⟨_, h, ?_, rfl, onlyRegs_setReg s x b⟩
  rwa [State.advance_reg, State.reg_setReg_same]

/-- An instruction that is one write of a result and then of a flag meets its specification: the flag wins in `V[15]`
(42_load_alu R161). -/
theorem writesRegAndFlag_of_exec {c : Bool} {flag : Prop}
    (h : exec i s = .next (s.setResultAndFlag x b c).advance) (hp : p b) (hc : c = true ↔ flag) :
    WritesRegAndFlag i s x p flag := by
  have hresult : x ≠ 15 → (s.setResultAndFlag x b c).advance.reg x = b := fun hx => by
    rw [State.advance_reg, State.reg_setResultAndFlag, if_neg hx, if_pos rfl]
  have hflag : (s.setResultAndFlag x b c).advance.reg 15 = if c then 1 else 0 := by
    rw [State.advance_reg, State.reg_setResultAndFlag, if_pos rfl]
  refine ⟨_, h, fun hx => (hresult hx).symm ▸ hp, ?_, ?_, rfl, onlyRegs_setResultAndFlag s x b c⟩
  · rw [hflag]
    exact ite_eq_or_eq ..
  · rw [hflag, ← hc]
    cases c <;> decide

/-! ## Results as numbers -/

/-- The value of the two subtractions (42_load_alu R169, R171). -/
theorem toNat_sub_byte (a b : Byte) : (a - b).toNat = (a.toNat + 256 - b.toNat) % 256 := by
  rw [BitVec.toNat_sub]
  omega

/-- The value of shift-right (42_load_alu R170). -/
theorem toNat_ushiftRight_one (a : Byte) : (a >>> 1).toNat = a.toNat / 2 := by
  rw [BitVec.toNat_ushiftRight, Nat.shiftRight_one]

/-- The value of shift-left (42_load_alu R172). -/
theorem toNat_shiftLeft_one (a : Byte) : (a <<< 1).toNat = a.toNat * 2 % 256 := by
  rw [BitVec.toNat_shiftLeft, Nat.shiftLeft_eq]

/-! ## Flags as comparisons -/

theorem carryOut_iff (a b : Byte) : carryOut a b = true ↔ 255 < a.toNat + b.toNat := decide_eq_true_iff

theorem noBorrow_iff (a b : Byte) : noBorrow a b = true ↔ b.toNat ≤ a.toNat := decide_eq_true_iff

theorem lowBit_iff (a : Byte) : lowBit a = true ↔ a.toNat % 2 = 1 := by
  rw [lowBit, BitVec.getLsbD, Nat.testBit_zero, decide_eq_true_iff]

theorem highBit_iff (a : Byte) : highBit a = true ↔ 128 ≤ a.toNat := by
  rw [highBit, ← BitVec.msb_eq_getLsbD_last, BitVec.msb_eq_decide, decide_eq_true_iff]

/-! ## The instructions -/

/-- Settles O23: each of the six is one register write. -/
theorem loadsAddImmediateAndLogicWriteOnlyVx : Obligations.LoadsAddImmediateAndLogicWriteOnlyVx := by
  unfold Obligations.LoadsAddImmediateAndLogicWriteOnlyVx
  exact fun x y nn s =>
    ⟨writesReg_of_exec rfl rfl, writesReg_of_exec rfl (BitVec.toNat_add ..), writesReg_of_exec rfl rfl,
      writesReg_of_exec rfl fun _ => BitVec.getLsbD_or, writesReg_of_exec rfl fun _ => BitVec.getLsbD_and,
      writesReg_of_exec rfl fun _ => BitVec.getLsbD_xor⟩

/-- Settles O24: each of the three is one write of a result and a flag, both computed from the operands before. -/
theorem arithmeticWritesResultThenFlag : Obligations.ArithmeticWritesResultThenFlag := by
  unfold Obligations.ArithmeticWritesResultThenFlag
  exact fun x y s =>
    ⟨writesRegAndFlag_of_exec rfl (BitVec.toNat_add ..) (carryOut_iff ..),
      writesRegAndFlag_of_exec rfl (toNat_sub_byte ..) (noBorrow_iff ..),
      writesRegAndFlag_of_exec rfl (toNat_sub_byte ..) (noBorrow_iff ..)⟩

/-- Settles O25: both shifts are one write of a result and a flag, and neither reads `V[Y]`. -/
theorem shiftsMoveOneBitIntoTheFlag : Obligations.ShiftsMoveOneBitIntoTheFlag := by
  unfold Obligations.ShiftsMoveOneBitIntoTheFlag
  exact fun x y s =>
    ⟨writesRegAndFlag_of_exec rfl (toNat_ushiftRight_one _) (lowBit_iff _),
      writesRegAndFlag_of_exec rfl (toNat_shiftLeft_one _) (highBit_iff _)⟩

/-- Settles O26: the instruction is one register write, of the sampled byte masked. -/
theorem randomAndMasksTheSampledByte : Obligations.RandomAndMasksTheSampledByte := by
  unfold Obligations.RandomAndMasksTheSampledByte
  exact fun x nn s => writesReg_of_exec rfl fun _ => BitVec.getLsbD_and

end Sys2Proof.Machine
end

section
/-! PROOFS. The index register and the memory instructions (spec 43_index_memory): the three writes of `I`, the two
stores, the load, and the load after the dump. -/

namespace Sys2Proof.Machine

open Sys2Proof.Safety

variable {s : State}

/-! ## The two outcomes of a checked access -/

/-- An access to `count + 1` bytes from `I` is done when the last of them is in memory (20_memory R61). -/
theorem exec_of_access_inside {i : Instr} {count : Nat} {d : State} (h : exec i s = .next (s.access (count + 1) d))
    (hr : s.index.toNat + count ≤ 4095) : exec i s = .next d := by
  have hin : checkRange s.index (count + 1) = true := (checkRange_iff _ _).mpr (.inr hr)
  rw [h, State.access_ok hin]

/-- An access to `count + 1` bytes from `I` takes `DataBounds(I)` when the last of them is not in memory
(60_exceptions R255). -/
theorem takesFault_of_access_outside {i : Instr} {count : Nat} {d : State}
    (h : exec i s = .next (s.access (count + 1) d)) (hr : 4095 < s.index.toNat + count) :
    TakesFault i s .dataBounds s.index := by
  have hout : checkRange s.index (count + 1) = false := (checkRange_false_iff _ _).mpr ⟨count.succ_pos, hr⟩
  rw [TakesFault, h, State.access_fault hout]
  rfl

/-! ## Writes of `I` -/

theorem onlyIndex_withIndex (s : State) (w : Word) : OnlyIndex s { s with index := w }.advance :=
  ⟨fun _ _ => rfl, fun _ => rfl, sameRest_refl s⟩

/-- add-to-index wraps at the 16 bits of `I` (10_state R27). -/
theorem toNat_add_zextByte (a : Word) (b : Byte) : (a + zextByte b).toNat = (a.toNat + b.toNat) % 65536 := by
  rw [BitVec.toNat_add, toNat_zextByte]

/-- The address of a glyph is at most 1275, so it is not cut (43_index_memory R182). -/
theorem toNat_glyphAddr (b : Byte) : (BitVec.ofNat 16 (b.toNat * Config.glyphStride)).toNat = b.toNat * 5 := by
  rw [BitVec.toNat_ofNat, Config.glyphStride]
  omega

/-- Settles O27: each of the three is one write of `I`. -/
theorem indexWritesLeaveFlagsAlone : Obligations.IndexWritesLeaveFlagsAlone := by
  unfold Obligations.IndexWritesLeaveFlagsAlone
  exact fun nnn x s =>
    ⟨⟨_, rfl, toNat_zextAddr nnn, rfl, onlyIndex_withIndex s _⟩,
      ⟨_, rfl, toNat_add_zextByte s.index (s.reg x), rfl, onlyIndex_withIndex s _⟩,
      ⟨_, rfl, toNat_glyphAddr (s.reg x), rfl, onlyIndex_withIndex s _⟩⟩

/-! ## The two stores -/

/-- Each byte stored from `I` reads back at its own effective address (43_index_memory R186). -/
theorem State.byte_store_effAddr (hm : s.mem.wf s.font = true) (bs : List Byte) {k : Nat} (hk : k < bs.length) :
    (s.store (s.effAddr 0) bs).byte (s.effAddr k) = bs[k] :=
  State.byte_store_inside hm (s.effAddr 0) bs hk

/-- A decimal digit fits a byte (43_index_memory R183). -/
theorem toNat_ofNat_digit {n : Nat} (h : n < 10) : (BitVec.ofNat 8 n).toNat = n := by
  rw [BitVec.toNat_ofNat]
  omega

/-- Settles O28: in range it stores the three digits from `I`, and otherwise it is the fault. -/
theorem storeBcdWritesThreeDigits : Obligations.StoreBcdWritesThreeDigits := by
  unfold Obligations.StoreBcdWritesThreeDigits
  refine fun x s => ⟨fun hm hin => ?_, fun hout => takesFault_of_access_outside (count := 2) rfl (by omega)⟩
  have hdigit {k n : Nat} (hk : k < 3) (e : (bcdDigits (s.reg x))[k] = BitVec.ofNat 8 n) (hn : n < 10) :
      ((s.store (s.effAddr 0) (bcdDigits (s.reg x))).byte (s.effAddr k)).toNat = n := by
    rw [State.byte_store_effAddr hm _ hk, e, toNat_ofNat_digit hn]
  exact ⟨_, exec_of_access_inside (count := 2) rfl (by omega), hdigit (by decide) rfl (by omega),
    hdigit (by decide) rfl (by omega), hdigit (by decide) rfl (by omega), rfl, onlyStore_store s _ _⟩

/-- Settles O29: in range it stores the registers from `I`, and otherwise it is the fault. -/
theorem registerDumpStoresVzeroToVx : Obligations.RegisterDumpStoresVzeroToVx := by
  unfold Obligations.RegisterDumpStoresVzeroToVx
  refine fun x s => ⟨fun hm hin => ?_, takesFault_of_access_outside rfl⟩
  refine ⟨_, exec_ldImemVx_of_inside hin, fun _ hk => State.byte_dump hm (s.effAddr 0) hk, rfl, ?_⟩
  rw [← s.length_regsUpTo x]
  exact onlyStore_store s _ _

/-! ## The load -/

/-- Settles O30: in range it loads the registers from `I`, and otherwise it is the fault. -/
theorem registerLoadFillsVzeroToVx : Obligations.RegisterLoadFillsVzeroToVx := by
  unfold Obligations.RegisterLoadFillsVzeroToVx
  exact fun x s =>
    ⟨fun hin => ⟨_, exec_of_access_inside rfl hin, s.reg_loadRegs x (s.effAddr 0), rfl, rfl, fun _ => rfl,
        sameRest_refl s⟩,
      takesFault_of_access_outside rfl⟩

/-- Settles O31: the rules of the dump and of the load, over the same `I` and the same bytes. -/
theorem loadAfterDumpRestoresTheRegisters : Obligations.LoadAfterDumpRestoresTheRegisters := by
  unfold Obligations.LoadAfterDumpRestoresTheRegisters
  intro x s t u hm hin hdump hbytes hindex
  obtain ⟨_, hexec, hstored, -, -, hkept, -⟩ := (registerDumpStoresVzeroToVx x s).1 hm hin
  cases hdump.symm.trans hexec
  have hindex' : u.index = s.index := hindex.trans hkept
  obtain ⟨w, hload, hregs, -⟩ := (registerLoadFillsVzeroToVx x u).1 (by rwa [hindex'])
  refine ⟨w, hload, fun k hk => ?_⟩
  have haddr : u.effAddr k.toNat = s.effAddr k.toNat := by rw [State.effAddr, hindex', State.effAddr]
  calc w.reg k = u.byte (s.effAddr k.toNat) := by rw [hregs, if_pos hk, haddr]
    _ = s.reg k := (hbytes _).trans (hstored k hk)

end Sys2Proof.Machine
end

section
/-! PROOFS. The display instructions (spec 44_display): clear-screen, one draw over the pixels it addresses, and the
same draw twice. -/

namespace Sys2Proof.Machine

open Sys2Proof.Safety

variable {s t : State} {x y : RegIdx} {n : Nibble} {py : Fin 32} {px : Fin 64}

/-! ## Clear-screen -/

theorem onlyScreen_cls (s : State) : OnlyScreen [] s { s with fb := Frame.blank, dirty := true }.advance :=
  ⟨fun _ _ => rfl, rfl, fun _ => rfl, sameStack_refl s, sameTimers_refl s, rfl, rfl, sameHostSide_refl s⟩

/-- Settles O32: clear-screen writes the blank framebuffer and `DIRTY`, and nothing else. -/
theorem clearScreenBlanksAndMarksDirty : Obligations.ClearScreenBlanksAndMarksDirty := by
  unfold Obligations.ClearScreenBlanksAndMarksDirty
  exact fun s => ⟨_, rfl, Frame.get_blank, rfl, rfl, onlyScreen_cls s⟩

/-! ## The two outcomes of a draw -/

/-- A draw of no rows, or of rows that are all in memory, is done (44_display R201, R206). -/
theorem exec_drwVxVyN_of_inside (hin : n.toNat = 0 ∨ s.index.toNat + n.toNat - 1 ≤ 4095) :
    exec (.drwVxVyN x y n) s = .next (s.afterDraw x y n).advance :=
  congrArg Host.Outcome.next (State.access_ok ((checkRange_iff _ _).mpr hin) _)

theorem takesFault_drwVxVyN_of_outside (hpos : 0 < n.toNat) (hout : 4095 < s.index.toNat + n.toNat - 1) :
    TakesFault (.drwVxVyN x y n) s .dataBounds s.index :=
  congrArg Host.Outcome.next (State.access_fault ((checkRange_false_iff _ _).mpr ⟨hpos, hout⟩) _)

/-! ## What a draw leaves, over the addressed pixels -/

theorem State.pixel_afterDraw_of_addressed (h : Addressed s x y n py px) :
    (s.afterDraw x y n).pixel py px = !s.pixel py px := by
  obtain ⟨hpixel, -⟩ := s.afterDraw_spec x y n
  rw [hpixel, decide_eq_true ((addressed_iff ..).mp h), Bool.xor_true]

theorem State.pixel_afterDraw_of_not_addressed (h : ¬ Addressed s x y n py px) :
    (s.afterDraw x y n).pixel py px = s.pixel py px := by
  obtain ⟨hpixel, -⟩ := s.afterDraw_spec x y n
  rw [hpixel, decide_eq_false ((addressed_iff ..).not.mp h), Bool.xor_false]

theorem State.flag_afterDraw_eq_one_or_zero (s : State) (x y : RegIdx) (n : Nibble) :
    (s.afterDraw x y n).reg 15 = 1 ∨ (s.afterDraw x y n).reg 15 = 0 := by
  obtain ⟨-, hflag, -⟩ := s.afterDraw_spec x y n
  rw [hflag]
  exact ite_eq_or_eq ..

/-- The flag of a draw is a collision with an addressed pixel (44_display R204). -/
theorem State.flag_afterDraw_iff (s : State) (x y : RegIdx) (n : Nibble) :
    (s.afterDraw x y n).reg 15 = 1 ↔ ∃ py px, Addressed s x y n py px ∧ s.pixel py px = true := by
  obtain ⟨-, hflag, -⟩ := s.afterDraw_spec x y n
  rw [hflag, Ne.ite_eq_left_iff (by decide)]
  simp only [addressed_iff, Prod.exists]

/-- A draw keeps `DIRTY` and sets it when it addresses a pixel (10_state R34). -/
theorem State.dirty_afterDraw_iff (s : State) (x y : RegIdx) (n : Nibble) :
    (s.afterDraw x y n).dirty = true ↔ s.dirty = true ∨ ∃ py px, Addressed s x y n py px := by
  obtain ⟨-, -, hdirty, -⟩ := s.afterDraw_spec x y n
  simp only [hdirty, addressed_iff, Bool.or_eq_true, Bool.not_eq_true', List.isEmpty_eq_false_iff_exists_mem,
    Prod.exists]

theorem onlyScreen_afterDraw (s : State) (x y : RegIdx) (n : Nibble) :
    OnlyScreen [15] s (s.afterDraw x y n).advance := by
  obtain ⟨-, -, -, hregs⟩ := s.afterDraw_spec x y n
  exact ⟨fun r hr => hregs r (List.ne_of_not_mem_cons hr), rfl, fun _ => rfl, sameStack_refl s, sameTimers_refl s,
    rfl, rfl, sameHostSide_refl s⟩

/-- Settles O33: in range the draw is `afterDraw`, told over the addressed pixels, and otherwise it is the fault. -/
theorem drawTogglesTheAddressedPixels : Obligations.DrawTogglesTheAddressedPixels := by
  unfold Obligations.DrawTogglesTheAddressedPixels
  refine fun x y n s => ⟨fun hin => ?_, takesFault_drwVxVyN_of_outside⟩
  exact ⟨_, exec_drwVxVyN_of_inside hin,
    fun _ _ => ⟨State.pixel_afterDraw_of_addressed, State.pixel_afterDraw_of_not_addressed⟩,
    s.flag_afterDraw_eq_one_or_zero x y n, s.flag_afterDraw_iff x y n, s.dirty_afterDraw_iff x y n, rfl,
    onlyScreen_afterDraw s x y n⟩

/-! ## The same draw twice -/

/-- A draw whose coordinates are not in `VF` leaves what it addresses as it was (44_display R205). -/
theorem addressed_iff_of_onlyScreen (hx : x ≠ 15) (hy : y ≠ 15) (h : OnlyScreen [15] s t) :
    Addressed t x y n py px ↔ Addressed s x y n py px := by
  obtain ⟨hregs, hindex, hbytes, -⟩ := h
  simp only [Addressed, hregs x (List.mem_singleton.not.mpr hx), hregs y (List.mem_singleton.not.mpr hy), hindex,
    hbytes _]

/-- Settles O34: the second draw addresses the same pixels, so it toggles each of them back and collides with those the
first turned on. -/
theorem drawingTwiceRestoresTheScreen : Obligations.DrawingTwiceRestoresTheScreen := by
  unfold Obligations.DrawingTwiceRestoresTheScreen
  intro x y n s t hx hy hin hdraw
  obtain ⟨_, hexec, hpixel, -, hflag, -, -, honly⟩ := (drawTogglesTheAddressedPixels x y n s).1 hin
  cases hexec.symm.trans hdraw
  have hsame (py px) : Addressed t x y n py px ↔ Addressed s x y n py px :=
    addressed_iff_of_onlyScreen hx hy honly
  obtain ⟨-, hindex, -⟩ := honly
  obtain ⟨u, hexec', hpixel', -, hflag', -⟩ := (drawTogglesTheAddressedPixels x y n t).1 (by rwa [hindex])
  refine ⟨u, hexec', fun py px => ?_, hflag, ?_⟩
  · by_cases h : Addressed s x y n py px
    · rw [(hpixel' py px).1 ((hsame py px).mpr h), (hpixel py px).1 h, Bool.not_not]
    · rw [(hpixel' py px).2 ((hsame py px).not.mpr h), (hpixel py px).2 h]
  · rw [hflag']
    refine exists_congr fun py => exists_congr fun px => (and_congr_left' (hsame py px)).trans ?_
    refine and_congr_right fun h => ?_
    rw [(hpixel py px).1 h, Bool.not_eq_true']

end Sys2Proof.Machine
end

section
/-! PROOFS. The key and timer instructions (spec 45_keys_timers): the key skips, await-key over one step and over
many, and the three timer instructions. -/

namespace Sys2Proof.Machine

open Sys2Proof.Safety

variable {s t u : State} {i : Instr} {x : RegIdx}

/-! ## Pressed keys -/

/-- A virtual key by its number is looked up in `KEYS` through `KEYMAP` (45_keys_timers R226). -/
theorem State.pressed_ofFin (s : State) (k : Fin 16) : s.pressed (BitVec.ofFin k) = s.keys[(s.keymap[k]).toNat] := rfl

/-- A register value of at most 15 names the virtual key of that number (45_keys_timers R227). -/
theorem keyOf_eq_ofFin {b : Byte} {k : Fin 16} (h : b.toNat = k.val) : keyOf b = BitVec.ofFin k := by
  rw [keyOf_eq_ofNat, h]
  exact BitVec.eq_of_toNat_eq (Nat.mod_eq_of_lt k.isLt)

/-- With no input pressed no virtual key is, whatever `KEYMAP` says. -/
theorem State.firstPressed_none_of_keys (h : ∀ k : Fin 16, s.keys[k] = false) : s.firstPressed = none :=
  s.firstPressed_none_iff.mpr fun v => h (s.keymap[v.toNat]'v.isLt).toFin

/-! ## The key skips -/

/-- An instruction that is one key skip tests the mapped key when its register is at most 15 (R220, R221). -/
theorem exec_keySkip_spec {want : Bool} {k : Fin 16} (h : exec i s = .next (s.keySkip x want))
    (hk : (s.reg x).toNat = k.val) :
    ∃ t, exec i s = .next t ∧
      t.pc = (if s.keys[(s.keymap[k]).toNat] = want then s.pc + 4 else s.pc + 2) ∧ OnlyRegs [] s t := by
  have hin : ¬ (s.reg x).toNat > 15 := by omega
  rw [State.keySkip_of_key want hin, keyOf_eq_ofFin hk, State.pressed_ofFin, beq_eq_decide] at h
  exact exec_skipIf_spec h

/-- An instruction that is one key skip takes `KeyIndexRange(V[X])` when its register is above 15 (R227). -/
theorem takesFault_of_keySkip {want : Bool} (h : exec i s = .next (s.keySkip x want)) (hx : 15 < (s.reg x).toNat) :
    TakesFault i s .keyIndexRange (BitVec.ofNat 16 (s.reg x).toNat) := by
  rw [TakesFault, h, State.keySkip_of_above want hx, zextByte_eq_ofNat]
  rfl

/-- Settles O35: both skips are one `keySkip`, each on its own state of the key. -/
theorem keySkipsTestTheMappedKey : Obligations.KeySkipsTestTheMappedKey := by
  unfold Obligations.KeySkipsTestTheMappedKey
  exact fun x s =>
    ⟨fun k hk => ⟨exec_keySkip_spec rfl hk, exec_keySkip_spec rfl hk⟩,
      fun hx => ⟨takesFault_of_keySkip rfl hx, takesFault_of_keySkip rfl hx⟩⟩

/-! ## Await-key, one step -/

/-- The key an await-key takes is the virtual one, which fits a byte (45_keys_timers R222). -/
theorem toNat_setWidth_key (k : KeyIdx) : (k.setWidth 8).toNat = k.toNat :=
  BitVec.toNat_setWidth_of_le (by decide)

theorem onlyReport_holdForKey (s : State) : OnlyReport s s.holdForKey :=
  ⟨fun _ _ => rfl, rfl, fun _ => rfl, sameStack_refl s, fun _ _ => rfl, rfl, sameTimers_refl s, rfl,
    sameHostSide_refl s⟩

/-- Settles O36: the scan finds the lowest pressed virtual key, or none and the instruction holds. -/
theorem awaitKeyTakesTheLowestPressedKeyOrHolds : Obligations.AwaitKeyTakesTheLowestPressedKeyOrHolds := by
  unfold Obligations.AwaitKeyTakesTheLowestPressedKeyOrHolds
  refine fun x s => ⟨fun k hk hlower => ?_, fun hnone => ?_⟩
  · have hfirst : s.firstPressed = some (BitVec.ofFin k) :=
      State.firstPressed_some_of hk fun j hj => hlower j.toFin hj
    exact writesReg_of_exec (exec_ldVxK_of_some x hfirst) (toNat_setWidth_key _)
  · have hfirst : s.firstPressed = none := s.firstPressed_none_iff.mpr (forall_regIdx hnone)
    exact ⟨_, exec_ldVxK_of_none x hfirst, rfl, rfl, onlyReport_holdForKey s⟩

/-! ## Await-key, step after step -/

/-- What an await-key that holds leaves as it was, timers and the host's inputs aside (45_keys_timers R222). -/
def Held (s t : State) : Prop := t.pc = s.pc ∧ SameRegsExcept [] s t ∧ SameBytes s t ∧ t.fault = s.fault

theorem held_refl (s : State) : Held s s := ⟨rfl, fun _ _ => rfl, fun _ => rfl, rfl⟩

theorem held_trans (h : Held s t) (h' : Held t u) : Held s u := by
  obtain ⟨hpc, hreg, hbyte, hfault⟩ := h
  obtain ⟨hpc', hreg', hbyte', hfault'⟩ := h'
  exact ⟨hpc'.trans hpc, fun r hr => (hreg' r hr).trans (hreg r hr), fun a => (hbyte' a).trans (hbyte a),
    hfault'.trans hfault⟩

/-- The next step fetches the same instruction again. -/
theorem atInstr_of_held (h : Held s t) (hi : AtInstr s i) : AtInstr t i := by
  obtain ⟨hpc, -, hbyte, hfault⟩ := h
  have hword (a : Nat) : t.word a = s.word a := by rw [State.word, hbyte, hbyte, State.word]
  rwa [AtInstr, hfault, hpc, hword]

theorem held_holdForKey (s : State) : Held s s.hostTurn.beginStep.holdForKey := by
  obtain ⟨hreg, -, hpc, -, hbyte, -, hfault, -⟩ := beginStep_hostTurn_frame s
  exact ⟨hpc, fun r _ => hreg r, hbyte, hfault⟩

/-- A step on an await-key whose scripted turn presses no key is a hold. -/
theorem step_holds {h : HostTurn} {l : List HostTurn} (hat : AtInstr s (.ldVxK x)) (hscript : s.script = h :: l)
    (hkeys : ∀ k : Fin 16, h.keys[k] = false) : step s = .next s.hostTurn.beginStep.holdForKey := by
  obtain ⟨hrun, hpc, hdecode⟩ := hat
  rw [step_running hrun hpc, hdecode]
  apply exec_ldVxK_of_none
  rw [s.hostTurn_script hscript]
  exact State.firstPressed_none_of_keys hkeys

/-- The run holds, and `keywait`, once reported, is reported by every later hold. -/
theorem run_holds (n : Nat) (x : RegIdx) (s : State) (hat : AtInstr s (.ldVxK x)) (hn : n ≤ s.script.length)
    (hkeys : ∀ h ∈ s.script.take n, ∀ k : Fin 16, h.keys[k] = false) :
    ∃ t, Host.Core.run Sys2Proof.core n s = .next t ∧ Held s t ∧
      (0 < n ∨ s.report.keywait = true → t.report.keywait = true) := by
  induction n generalizing s with
  | zero => exact ⟨s, rfl, held_refl s, fun h => h.resolve_left (Nat.lt_irrefl 0)⟩
  | succ n ih =>
    obtain ⟨h, l, hscript⟩ := List.exists_cons_of_length_pos (Nat.zero_lt_of_lt hn)
    rw [hscript, List.length_cons, Nat.add_le_add_iff_right] at hn
    rw [hscript, List.take_succ_cons, List.forall_mem_cons] at hkeys
    obtain ⟨hhead, htail⟩ := hkeys
    have hheld : Held s s.hostTurn.beginStep.holdForKey := held_holdForKey s
    have hrest : s.hostTurn.beginStep.holdForKey.script = l := by rw [s.hostTurn_script hscript]; rfl
    obtain ⟨t, hrun, hheld', hreport⟩ :=
      ih _ (atInstr_of_held hheld hat) (by rwa [hrest]) (by rwa [hrest])
    exact ⟨t, (core_run_succ s n _ (step_holds hat hscript hhead)).trans hrun, held_trans hheld hheld',
      fun _ => hreport (.inr rfl)⟩

/-- Settles O58: the run holds, by induction on the number of steps. -/
theorem awaitKeyHoldsStepAfterStep : Obligations.AwaitKeyHoldsStepAfterStep := by
  unfold Obligations.AwaitKeyHoldsStepAfterStep
  intro n x s hat hn hkeys
  obtain ⟨t, hrun, ⟨hpc, hreg, hbyte, hfault⟩, hreport⟩ := run_holds n x s hat hn hkeys
  exact ⟨t, hrun, hpc, hreg, hbyte, hfault, fun hpos => hreport (.inl hpos)⟩

/-! ## The timer instructions -/

theorem onlyTimers_withTimers (s : State) (dt st : Byte) : OnlyTimers s { s with dt := dt, st := st }.advance :=
  ⟨fun _ _ => rfl, rfl, fun _ => rfl, sameStack_refl s, fun _ _ => rfl, rfl, rfl, rfl, rfl, sameHostSide_refl s⟩

/-- Settles O37: one register write and two writes of a timer. -/
theorem timerInstructionsMoveTheTimers : Obligations.TimerInstructionsMoveTheTimers := by
  unfold Obligations.TimerInstructionsMoveTheTimers
  exact fun x s =>
    ⟨writesReg_of_exec rfl rfl, ⟨_, rfl, rfl, rfl, rfl, onlyTimers_withTimers s _ _⟩,
      ⟨_, rfl, rfl, rfl, rfl, onlyTimers_withTimers s _ _⟩⟩

end Sys2Proof.Machine
end

section
/-! PROOFS. The fallback for unrecognized words (spec 46_unrecognized). -/

namespace Sys2Proof.Machine

open Sys2Proof.Safety

/-- A report written with the advance of `PC` changes nothing else, whatever it says. -/
theorem onlyReport_withReport (s : State) (r : Report) : OnlyReport s { s with report := r }.advance :=
  ⟨fun _ _ => rfl, rfl, fun _ => rfl, sameStack_refl s, fun _ _ => rfl, rfl, sameTimers_refl s, rfl,
    sameHostSide_refl s⟩

/-- The fallback completes in the state that carries its report, one word on (R240). -/
theorem exec_unknown (w : Word) (s : State) : exec (.unknown w) s = .next
    { s with report := ⟨true, s.pc, w, s.report.keywait⟩ }.advance := rfl

/-- Settles O38: the fallback is one write of the report and the advance, with `keywait` carried over. -/
theorem unknownWordIsReportedAndSkipped : Obligations.UnknownWordIsReportedAndSkipped := by
  unfold Obligations.UnknownWordIsReportedAndSkipped
  exact fun w s =>
    ⟨_, exec_unknown w s, rfl, rfl, rfl, rfl, State.advance_pc _, onlyReport_withReport s _⟩

end Sys2Proof.Machine
end

section
/-! PROOFS. The faults of an instruction (spec 60_exceptions R250 to R260): every instruction ends as the table of
faults says, and so every step keeps `FAULT` true of the machine. -/

namespace Sys2Proof.Machine

open Sys2Proof.Safety

/-- The states the table of faults allows an instruction `i` begun in `s` to end in: the fault it names, with nothing
else changed (R260), or, where it names none, a state with `FAULT` as it was. -/
inductive EndsAsTabled (i : Instr) (s : State) : State → Prop where
  | faulted {c : FaultCause} {info : Word} (hf : faultOf i s = some (c, info)) : EndsAsTabled i s (s.raise c info)
  | completed {t : State} (hf : faultOf i s = none) (ht : t.fault = s.fault) : EndsAsTabled i s t

variable {i : Instr} {s t : State}

/-! ## The instructions that can end in two ways -/

/-- An instruction that accesses its span takes `DataBounds(I)` exactly when the span is not inside memory (R255). -/
theorem endsAsTabled_access {d : State}
    (hf : faultOf i s = if SpanOutside i s then some (.dataBounds, s.index) else none)
    (hd : d.fault = s.fault) : EndsAsTabled i s (s.access (Instr.span i) d) := by
  obtain ⟨hr, e⟩ | ⟨hr, e⟩ := s.access_cases (Instr.span i) d <;> rw [e]
  · have hin : ¬ SpanOutside i s := by rw [spanOutside_iff, hr]; exact Bool.noConfusion
    exact .completed (hf.trans (if_neg hin)) hd
  · exact .faulted (hf.trans (if_pos ((spanOutside_iff s i).mpr hr)))

/-- A key skip takes `KeyIndexRange(V[X])` exactly when its register is above 15 (45_keys_timers R227). -/
theorem endsAsTabled_keySkip {x : RegIdx} (want : Bool)
    (hf : faultOf i s = if 15 < (s.reg x).toNat then some (.keyIndexRange, zextByte (s.reg x)) else none) :
    EndsAsTabled i s (s.keySkip x want) := by
  by_cases h : (s.reg x).toNat > 15
  · rw [State.keySkip_of_above want h]
    exact .faulted (hf.trans (if_pos h))
  · rw [State.keySkip_of_key want h]
    exact .completed (hf.trans (if_neg h)) rfl

theorem exec_ret_endsAsTabled (s : State) : ∃ t, exec .ret s = .next t ∧ EndsAsTabled .ret s t := by
  by_cases h : s.sp = 0
  · exact ⟨_, exec_ret_of_empty h, .faulted (if_pos h)⟩
  · exact ⟨_, exec_ret_of_nonempty (Fin.val_ne_zero_iff.mpr h), .completed (if_neg h) rfl⟩

theorem exec_callNnn_endsAsTabled (nnn : Addr) (s : State) :
    ∃ t, exec (.callNnn nnn) s = .next t ∧ EndsAsTabled (.callNnn nnn) s t := by
  by_cases h : s.sp = 16
  · exact ⟨_, exec_callNnn_of_full nnn h, .faulted (if_pos h)⟩
  · exact ⟨_, exec_callNnn_of_room nnn (s.sp_lt_of_ne h), .completed (if_neg h) rfl⟩

/-- An await-key completes whether it takes a key or holds (45_keys_timers R222). -/
theorem exec_ldVxK_endsAsTabled (x : RegIdx) (s : State) :
    ∃ t, exec (.ldVxK x) s = .next t ∧ EndsAsTabled (.ldVxK x) s t := by
  cases h : s.firstPressed with
  | none => exact ⟨_, exec_ldVxK_of_none x h, .completed rfl rfl⟩
  | some k => exact ⟨_, exec_ldVxK_of_some x h, .completed rfl rfl⟩

/-! ## Every instruction -/

theorem exec_endsAsTabled (i : Instr) (s : State) : ∃ t, exec i s = .next t ∧ EndsAsTabled i s t := by
  cases i with
  | ret => exact exec_ret_endsAsTabled s
  | callNnn nnn => exact exec_callNnn_endsAsTabled nnn s
  | ldVxK x => exact exec_ldVxK_endsAsTabled x s
  | skpVx | sknpVx => exact ⟨_, rfl, endsAsTabled_keySkip _ rfl⟩
  | ldBVx | ldImemVx | ldVxImem | drwVxVyN => exact ⟨_, rfl, endsAsTabled_access rfl rfl⟩
  | _ => exact ⟨_, rfl, .completed rfl rfl⟩

/-- Settles O48: every instruction ends as tabled, and the table has one entry for it. -/
theorem faultsAreThoseOfTheTableAndPrecise : Obligations.FaultsAreThoseOfTheTableAndPrecise := by
  unfold Obligations.FaultsAreThoseOfTheTableAndPrecise
  intro i s
  obtain ⟨t, ht, hend⟩ := exec_endsAsTabled i s
  cases hend with
  | faulted hf =>
    refine ⟨fun c info hf' => ?_, fun hf' => absurd (hf.symm.trans hf') (Option.some_ne_none _)⟩
    cases hf.symm.trans hf'
    exact ht
  | completed hf hfault =>
    exact ⟨fun c info hf' => absurd (hf'.symm.trans hf) (Option.some_ne_none _), fun _ => ⟨t, ht, hfault⟩⟩

/-! ## What `FAULT` says of the machine -/

theorem faultSound_of_running (h : s.fault.cause = .noFault) : FaultSound s := fun hhalted => absurd h hhalted

theorem faultSound_raise_fetchBounds {pc : Word} (hpc : s.pc = pc) (h : 0x0FFE < pc.toNat) :
    FaultSound (s.raise .fetchBounds pc) := by
  subst hpc
  refine fun _ => ⟨rfl, ?_⟩
  rw [State.raise_pc, if_pos h]
  exact ⟨rfl, rfl⟩

theorem faultSound_raise_misalignedFetch {pc : Word} (hpc : s.pc = pc) (hle : pc.toNat ≤ 0x0FFE)
    (hodd : pc.toNat % 2 = 1) : FaultSound (s.raise .misalignedFetch pc) := by
  subst hpc
  refine fun _ => ⟨rfl, ?_⟩
  rw [State.raise_pc, if_neg (Nat.not_lt.mpr hle), if_pos hodd]
  exact ⟨rfl, rfl⟩

/-- A fault entry changes nothing its own table entry reads, so the record stays true of the state it leaves (R260). -/
theorem faultSound_raise_of_tabled {c : FaultCause} {info : Word} (hat : AtInstr s i)
    (hf : faultOf i s = some (c, info)) : FaultSound (s.raise c info) := by
  obtain ⟨-, ⟨hle, heven⟩, rfl⟩ := hat
  have hnotOdd : ¬ s.pc.toNat % 2 = 1 := by omega
  refine fun _ => ⟨rfl, ?_⟩
  rw [State.raise_pc, if_neg (Nat.not_lt.mpr hle), if_neg hnotOdd]
  exact (faultOf_congr _ rfl rfl rfl).trans hf

/-- The host's turn touches nothing the record is held against (10_state R39 to R45). -/
theorem faultSound_hostTurn (hs : FaultSound s) : FaultSound s.hostTurn := by
  have hfaultOf (i : Instr) : faultOf i s.hostTurn = faultOf i s :=
    faultOf_congr i s.hostTurn_v s.hostTurn_index s.hostTurn_sp
  simpa only [FaultSound, State.hostTurn_fault, State.hostTurn_pc, State.hostTurn_word, hfaultOf] using hs

/-- The instruction at `PC` of a running engine faults as tabled, or leaves the engine running. -/
theorem faultSound_of_exec (hat : AtInstr s i) (h : exec i s = .next t) : FaultSound t := by
  obtain ⟨u, hu, hend⟩ := exec_endsAsTabled i s
  obtain rfl : u = t := Host.Outcome.next.inj (hu.symm.trans h)
  cases hend with
  | faulted hf => exact faultSound_raise_of_tabled hat hf
  | completed _ hfault =>
    obtain ⟨hrun, -⟩ := hat
    exact faultSound_of_running (by rw [hfault, hrun])

/-- What stands before the fetch leaves the next instruction as it was (40_step_cycle R120). -/
theorem held_beginStep_hostTurn (s : State) : Held s s.hostTurn.beginStep := by
  obtain ⟨hreg, -, hpc, -, hbyte, -, hfault, -⟩ := beginStep_hostTurn_frame s
  exact ⟨hpc, fun r _ => hreg r, hbyte, hfault⟩

/-- Settles O51: a halted step is the host's turn, and a running one ends in a fetch fault or in the instruction at
`PC`, each with its own true record. -/
theorem stepKeepsTheFaultRecordTrue : Obligations.StepKeepsTheFaultRecordTrue := by
  unfold Obligations.StepKeepsTheFaultRecordTrue
  intro s t hs h
  have hpc : s.hostTurn.beginStep.pc = s.pc := s.hostTurn_pc
  obtain ⟨-, e⟩ | ⟨-, hlt, e⟩ | ⟨-, hle, hodd, e⟩ | ⟨hrun, hle, heven, e⟩ := step_cases s
  · cases e.symm.trans h
    exact faultSound_hostTurn hs
  · cases e.symm.trans h
    exact faultSound_raise_fetchBounds hpc hlt
  · cases e.symm.trans h
    exact faultSound_raise_misalignedFetch hpc hle hodd
  · have hat : AtInstr s.hostTurn.beginStep (decode (s.word s.pc.toNat)) :=
      atInstr_of_held (held_beginStep_hostTurn s) ⟨hrun, ⟨hle, heven⟩, rfl⟩
    exact faultSound_of_exec hat (e.symm.trans h)

end Sys2Proof.Machine
end

section
/-! PROOFS. Programs that have ended (70_reset R305): a step of one is the host's turn, the cleared report and the timer
service, so each tick takes one off each timer (60_exceptions R265). -/

namespace Sys2Proof.Machine

open Sys2Proof.Safety

variable {s : State}

/-- A jump to itself leaves the state it began in. -/
theorem step_ended (h : Ended s) : step s = .next s.hostTurn.beginStep := by
  obtain ⟨nnn, ⟨hrun, hpc, hdecode⟩, htarget⟩ := h
  have hstay : zextAddr nnn = s.hostTurn.beginStep.pc := htarget.trans s.hostTurn_pc.symm
  rw [step_running hrun hpc, hdecode, exec, execJpNnn, hstay]
  rfl

theorem ended_beginStep_hostTurn (h : Ended s) : Ended s.hostTurn.beginStep := by
  obtain ⟨nnn, hat, htarget⟩ := h
  exact ⟨nnn, atInstr_of_held (held_beginStep_hostTurn s) hat, htarget.trans s.hostTurn_pc.symm⟩

/-- What stands before the fetch of a step with `TICK = 1` takes one off each timer (40_step_cycle R121). -/
theorem toNat_timers_beginStep_of_tick (h : s.hostTurn.tick = true) :
    s.hostTurn.beginStep.dt.toNat = s.dt.toNat - 1 ∧ s.hostTurn.beginStep.st.toNat = s.st.toNat - 1 := by
  rw [State.beginStep_dt, State.beginStep_st, if_pos h, if_pos h, toNat_countDown, toNat_countDown,
    State.hostTurn_dt, State.hostTurn_st]
  exact ⟨rfl, rfl⟩

/-- Settles O57, by induction on the number of steps: each takes one off, and the program stays ended. -/
theorem timersReachZeroAfterThatManyTicks : Obligations.TimersReachZeroAfterThatManyTicks := by
  unfold Obligations.TimersReachZeroAfterThatManyTicks
  intro n
  induction n with
  | zero => exact fun s _ _ _ => ⟨s, rfl, rfl, rfl⟩
  | succ n ih =>
    intro s hended hn hticks
    obtain ⟨h, l, hscript⟩ := List.exists_cons_of_length_pos (Nat.zero_lt_of_lt hn)
    rw [hscript, List.length_cons, Nat.add_le_add_iff_right] at hn
    rw [hscript, List.take_succ_cons, List.forall_mem_cons] at hticks
    obtain ⟨hhead, htail⟩ := hticks
    have hturn : s.hostTurn = { s with script := l }.accept h := s.hostTurn_script hscript
    have hrest : s.hostTurn.beginStep.script = l := by rw [hturn]; rfl
    have htick : s.hostTurn.tick = true := by rw [hturn]; exact hhead
    obtain ⟨hdt, hst⟩ := toNat_timers_beginStep_of_tick htick
    obtain ⟨t, hrun, hdt', hst'⟩ := ih _ (ended_beginStep_hostTurn hended) (by rwa [hrest]) (by rwa [hrest])
    exact ⟨t, (core_run_succ s n _ (step_ended hended)).trans hrun, by omega, by omega⟩

end Sys2Proof.Machine
end

section
/-! PROOFS. Return (spec 41_control_flow R140): the top entry goes into `PC`, so a return lands after its call. -/

namespace Sys2Proof.Machine

open Sys2Proof.Safety

/-- Settles O20: with an entry in use a return is one write of `PC` and `SP`, and with none it is the fault. -/
theorem returnPopsIntoTheProgramCounter : Obligations.ReturnPopsIntoTheProgramCounter := by
  unfold Obligations.ReturnPopsIntoTheProgramCounter
  refine fun s => ⟨fun hpos => ?_, fun hempty => exec_ret_of_empty (Fin.ext hempty)⟩
  refine ⟨_, exec_ret_of_nonempty (Nat.ne_of_gt hpos), Nat.sub_add_cancel hpos, fun k hk => ?_, rfl,
    onlyStack_set s _ s.stack _⟩
  have htop : s.sp.val - 1 = k.val := Nat.sub_eq_of_eq_add hk.symm
  simp only [htop, Fin.getElem_fin]

/-- Settles O21: the call wrote its return address at the old `SP`, which is the entry the return pops. -/
theorem returnLandsAfterTheCall : Obligations.ReturnLandsAfterTheCall := by
  unfold Obligations.ReturnLandsAfterTheCall
  intro nnn s t u hroom hcall husp hustack
  obtain ⟨hcalls, -⟩ := callPushesTheReturnAddress nnn s
  obtain ⟨t', ht', -, hsp, hstack, -⟩ := hcalls hroom
  obtain rfl : t' = t := Host.Outcome.next.inj (ht'.symm.trans hcall)
  have husp' : u.sp.val = s.sp.val + 1 := by rw [husp, hsp]
  obtain ⟨hreturns, -⟩ := returnPopsIntoTheProgramCounter u
  obtain ⟨w, hw, hwsp, hwpc, -⟩ := hreturns (by omega)
  refine ⟨w, hw, ?_, Fin.ext (by omega)⟩
  rw [hwpc ⟨s.sp.val, hroom⟩ husp'.symm, hustack, hstack, if_pos rfl]

end Sys2Proof.Machine
end

section
/-! PROOFS. The fetch (spec 40_step_cycle R122): the two faults it can take, and the word it reads. -/

namespace Sys2Proof.Machine

open Sys2Proof.Safety

/-- A fault taken at the fetch records the `PC` the step began with (60_exceptions R260). -/
theorem State.raise_beginStep_hostTurn (s : State) (c : FaultCause) (info : Word) :
    s.hostTurn.beginStep.raise c info = { s.hostTurn.beginStep with fault := ⟨c, s.pc, info⟩ } :=
  congrArg (fun pc => { s.hostTurn.beginStep with fault := ⟨c, pc, info⟩ }) s.hostTurn_pc

/-- Settles O11: each of the two bad fetches is one case of a running step. -/
theorem fetchFaultsAreTaken : Obligations.FetchFaultsAreTaken := by
  unfold Obligations.FetchFaultsAreTaken
  intro s hrun
  rw [← State.raise_beginStep_hostTurn, ← State.raise_beginStep_hostTurn]
  obtain ⟨hhalted, -⟩ | ⟨-, hlt, e⟩ | ⟨-, hle, hodd, e⟩ | ⟨-, hle, heven, -⟩ := step_cases s
  · exact absurd hrun hhalted
  · exact ⟨fun _ => e, fun hle => absurd hlt (Nat.not_lt.mpr hle)⟩
  · exact ⟨fun hlt => absurd hlt (Nat.not_lt.mpr hle), fun _ _ => e⟩
  · exact ⟨fun hlt => absurd hlt (Nat.not_lt.mpr hle), fun _ hodd => by omega⟩

/-- The first of the two bytes is the high one (20_memory R62). -/
theorem toNat_wordOf (hi lo : Byte) : (wordOf hi lo).toNat = hi.toNat * 256 + lo.toNat := by
  rw [wordOf, BitVec.toNat_append, ← Nat.shiftLeft_add_eq_or_of_lt lo.isLt, Nat.shiftLeft_eq]

/-- Settles O12: a fetch in range gives the word of the two bytes at `PC`. -/
theorem fetchReadsTheHighByteFirst : Obligations.FetchReadsTheHighByteFirst := by
  unfold Obligations.FetchReadsTheHighByteFirst
  rintro s ⟨hle, heven⟩
  exact ⟨_, State.fetch_ok hle heven, toNat_wordOf _ _⟩

end Sys2Proof.Machine
end

section
/-! PROOFS. The report of a step (spec 10_state R46): the fallback and an await-key that holds write it, no other
instruction does. -/

namespace Sys2Proof.Machine

open Sys2Proof.Safety

variable {i j : Instr} {s t : State}

/-! ## Every instruction -/

theorem State.report_access (n : Nat) {d : State} (h : d.report = s.report) : (s.access n d).report = s.report := by
  obtain ⟨-, e⟩ | ⟨-, e⟩ := s.access_cases n d <;> rw [e]
  · exact h
  · exact s.raise_report _ _

theorem State.report_keySkip (s : State) (x : RegIdx) (want : Bool) : (s.keySkip x want).report = s.report := by
  by_cases h : (s.reg x).toNat > 15
  · rw [State.keySkip_of_above want h, State.raise_report]
  · rw [State.keySkip_of_key want h, State.skipIf_report]

theorem exec_ret_report (s : State) : ∃ t, exec .ret s = .next t ∧ t.report = s.report := by
  by_cases h : s.sp = 0
  · exact ⟨_, exec_ret_of_empty h, rfl⟩
  · exact ⟨_, exec_ret_of_nonempty (Fin.val_ne_zero_iff.mpr h), rfl⟩

theorem exec_callNnn_report (nnn : Addr) (s : State) :
    ∃ t, exec (.callNnn nnn) s = .next t ∧ t.report = s.report := by
  by_cases h : s.sp = 16
  · exact ⟨_, exec_callNnn_of_full nnn h, rfl⟩
  · exact ⟨_, exec_callNnn_of_room nnn (s.sp_lt_of_ne h), rfl⟩

/-- Only the fallback and await-key write the report (R222, R240). -/
theorem exec_report (hunknown : ∀ w, i ≠ .unknown w) (hawait : ∀ x, i ≠ .ldVxK x) (s : State) :
    ∃ t, exec i s = .next t ∧ t.report = s.report := by
  cases i with
  | unknown w => exact absurd rfl (hunknown w)
  | ldVxK x => exact absurd rfl (hawait x)
  | ret => exact exec_ret_report s
  | callNnn nnn => exact exec_callNnn_report nnn s
  | skpVx x => exact ⟨_, rfl, s.report_keySkip x true⟩
  | sknpVx x => exact ⟨_, rfl, s.report_keySkip x false⟩
  | ldBVx | ldImemVx | ldVxImem | drwVxVyN => exact ⟨_, rfl, State.report_access _ rfl⟩
  | _ => exact ⟨_, rfl, rfl⟩

theorem report_of_exec (hunknown : ∀ w, i ≠ .unknown w) (hawait : ∀ x, i ≠ .ldVxK x)
    (h : exec i s = .next t) : t.report = s.report := by
  obtain ⟨u, hu, hreport⟩ := exec_report hunknown hawait s
  obtain rfl : u = t := Host.Outcome.next.inj (hu.symm.trans h)
  exact hreport

/-! ## A step of a running engine -/

theorem atInstr_unique (hi : AtInstr s i) (hj : AtInstr s j) : i = j := by
  obtain ⟨-, -, rfl⟩ := hi
  obtain ⟨-, -, rfl⟩ := hj
  rfl

/-- The reports a running step begun in `s` can leave (10_state R46). -/
inductive Reports (s : State) : Report → Prop where
  /-- The word at `PC` is unrecognized (46_unrecognized R240). -/
  | unrecognized {w : Word} (hat : AtInstr s (.unknown w)) : Reports s ⟨true, s.pc, w, false⟩
  /-- The instruction at `PC` is an await-key, and no key is pressed (45_keys_timers R222). -/
  | held {x : RegIdx} (hat : AtInstr s (.ldVxK x)) (hup : ∀ k, s.hostTurn.pressed k = false) :
      Reports s ⟨false, 0, 0, true⟩
  /-- Neither is so. -/
  | clear (hunknown : ∀ w, ¬ AtInstr s (.unknown w))
      (hdown : ∀ x, AtInstr s (.ldVxK x) → ¬ ∀ k, s.hostTurn.pressed k = false) : Reports s ⟨false, 0, 0, false⟩

theorem reports_clear_of_not_fetchable (h : ¬ Fetchable s.pc) : Reports s ⟨false, 0, 0, false⟩ :=
  .clear (fun _ ⟨_, hpc, _⟩ => h hpc) fun _ ⟨_, hpc, _⟩ => absurd hpc h

/-- The keys sampled in the host's turn are those the await-key sees. -/
theorem reports_of_exec_ldVxK {x : RegIdx} (hat : AtInstr s (.ldVxK x))
    (h : exec (.ldVxK x) s.hostTurn.beginStep = .next t) : Reports s t.report := by
  have hunknown (w : Word) : ¬ AtInstr s (.unknown w) := fun hat' => Instr.noConfusion (atInstr_unique hat hat')
  cases hfirst : s.hostTurn.firstPressed with
  | none =>
    cases (exec_ldVxK_of_none (s := s.hostTurn.beginStep) x hfirst).symm.trans h
    exact .held hat (s.hostTurn.firstPressed_none_iff.mp hfirst)
  | some k =>
    cases (exec_ldVxK_of_some (s := s.hostTurn.beginStep) x hfirst).symm.trans h
    refine .clear hunknown fun _ _ hup => ?_
    exact Option.some_ne_none k (hfirst.symm.trans (s.hostTurn.firstPressed_none_iff.mpr hup))

/-- An instruction that writes no report leaves the one the step began with, which is clear (10_state R46). -/
theorem reports_of_exec_silent (hat : AtInstr s i) (hunknown : ∀ w, i ≠ .unknown w) (hawait : ∀ x, i ≠ .ldVxK x)
    (h : exec i s.hostTurn.beginStep = .next t) : Reports s t.report := by
  rw [report_of_exec hunknown hawait h]
  exact .clear (fun w hat' => hunknown w (atInstr_unique hat hat'))
    fun x hat' => absurd (atInstr_unique hat hat') (hawait x)

theorem reports_of_exec (hat : AtInstr s i) (h : exec i s.hostTurn.beginStep = .next t) : Reports s t.report := by
  cases i with
  | unknown w =>
    cases (exec_unknown w _).symm.trans h
    rw [State.advance_report, State.beginStep_pc, State.hostTurn_pc]
    exact .unrecognized hat
  | ldVxK x => exact reports_of_exec_ldVxK hat h
  | _ => exact reports_of_exec_silent hat nofun nofun h

theorem reports_of_step (hrun : s.fault.cause = .noFault) (h : step s = .next t) : Reports s t.report := by
  obtain ⟨hhalted, -⟩ | ⟨-, hlt, e⟩ | ⟨-, -, hodd, e⟩ | ⟨-, hle, heven, e⟩ := step_cases s
  · exact absurd hrun hhalted
  · cases e.symm.trans h
    exact reports_clear_of_not_fetchable (by omega)
  · cases e.symm.trans h
    exact reports_clear_of_not_fetchable (by omega)
  · exact reports_of_exec ⟨hrun, ⟨hle, heven⟩, rfl⟩ (e.symm.trans h)

/-- Settles O15: the step leaves one of the three reports, and no two of their conditions hold of one state. -/
theorem reportSaysUnknownWordAndKeyWait : Obligations.ReportSaysUnknownWordAndKeyWait := by
  unfold Obligations.ReportSaysUnknownWordAndKeyWait
  intro s t hrun h
  have hreports := reports_of_step hrun h
  generalize t.report = r at hreports ⊢
  cases hreports with
  | unrecognized hat =>
    refine ⟨fun w hat' => ?_, fun hunknown => absurd hat (hunknown _), Bool.noConfusion, fun ⟨x, hat', _⟩ => ?_⟩
    · cases atInstr_unique hat hat'
      rfl
    · cases atInstr_unique hat hat'
  | held hat hup =>
    refine ⟨fun w hat' => ?_, fun _ => ⟨rfl, rfl, rfl⟩, fun _ => ⟨_, hat, hup⟩, fun _ => rfl⟩
    cases atInstr_unique hat hat'
  | clear hunknown hdown =>
    exact ⟨fun w hat => absurd hat (hunknown w), fun _ => ⟨rfl, rfl, rfl⟩, Bool.noConfusion,
      fun ⟨x, hat, hup⟩ => absurd hup (hdown x hat)⟩

end Sys2Proof.Machine
end

section
/-! PROOFS. The host's ports (spec 70_reset R290 to R297, 10_state R42): what a `RESET` leaves, and that the host keeps
the invariants of the machine. -/

namespace Sys2Proof.Machine

open Sys2Proof.Safety

section Launch

variable (image : List Byte) (font : Font) (keymap : Vector KeyIdx 16) (s : State)

/-! ## A launch -/

theorem perform_reset_of_ok (h : image.length ≤ 3584) :
    perform (.reset image font keymap) s = .next (launch image font keymap s) :=
  if_pos ((launchOk_iff image).mpr h)

theorem perform_reset_of_long (h : 3584 < image.length) :
    perform (.reset image font keymap) s = .refused .notALaunch :=
  if_neg ((launchOk_iff image).not.mpr (Nat.not_le.mpr h))

/-- Settles O17: the image breaks the precondition of a launch. -/
theorem badLaunchIsRefusedByName : Obligations.BadLaunchIsRefusedByName :=
  perform_reset_of_long

/-- The state after reset is a launch of an empty image (log entry 7). -/
theorem launch_nil_reset : launch [] Config.font Config.keymap State.reset = State.reset := rfl

theorem reg_launch (r : RegIdx) : (launch image font keymap s).reg r = 0 := Vector.getElem_replicate r.isLt

theorem stack_launch (k : Fin 16) : (launch image font keymap s).stack[k] = 0 := Vector.getElem_replicate k.isLt

theorem pixel_launch (y : Fin 32) (x : Fin 64) : (launch image font keymap s).pixel y x = false := by
  show ((Vector.replicate 32 (Vector.replicate 64 false))[y.val])[x.val] = false
  rw [Vector.getElem_replicate, Vector.getElem_replicate]

theorem byte_launch_of_image {k : Nat} (h : k < image.length) :
    (launch image font keymap s).byte (0x200 + k) = image[k] :=
  Memory.read_writeBytes_inside rfl 0x200 image h

theorem byte_launch_outside {a : Nat} (h : a < 0x200 ∨ 0x200 + image.length ≤ a) :
    (launch image font keymap s).byte a = Memory.unlisted font a :=
  Memory.read_writeBytes_outside [] 0x200 image h

theorem byte_launch_of_font (a : Fin 80) : (launch image font keymap s).byte a.val = font[a] := by
  rw [byte_launch_outside image font keymap s (.inl (by omega))]
  exact dif_pos a.isLt

theorem byte_launch_of_free {a : Nat} (hfont : 80 ≤ a) (h : a < 0x200 ∨ 0x200 + image.length ≤ a) :
    (launch image font keymap s).byte a = 0 := by
  rw [byte_launch_outside image font keymap s h]
  exact dif_neg (Nat.not_lt.mpr hfont)

theorem memoryCanonical_launch (h : image.length ≤ 3584) : MemoryCanonical (launch image font keymap s) := by
  have hend : 0x200 + image.length ≤ 4096 := by omega
  exact ⟨Memory.wf_writeBytes rfl 0x200 image, Memory.inSpace_writeBytes rfl (.inr hend)⟩

theorem controlSound_launch : ControlSound (launch image font keymap s) := by
  have hpc : (0x0200 : Word).toNat ≤ 0x10FE := by decide
  exact ⟨fun k hk => absurd hk k.val.not_lt_zero, hpc⟩

theorem faultSound_launch : FaultSound (launch image font keymap s) := faultSound_of_running rfl

end Launch

/-- Settles O16: each element is a field of the state after reset, and memory is the font, zeros and the image. -/
theorem resetGivesEveryElementItsValue : Obligations.ResetGivesEveryElementItsValue := by
  unfold Obligations.ResetGivesEveryElementItsValue
  intro image font keymap s h
  exact ⟨_, perform_reset_of_ok image font keymap s h, reg_launch image font keymap s, rfl, rfl, rfl,
    stack_launch image font keymap s, byte_launch_of_font image font keymap s,
    fun _ => byte_launch_of_image image font keymap s, fun _ => byte_launch_of_free image font keymap s,
    pixel_launch image font keymap s, rfl, rfl, rfl, rfl, rfl, rfl, rfl⟩

/-! ## The invariants -/

/-- Settles O52: the state after reset is a launch. -/
theorem resetMeetsTheInvariants : Obligations.ResetMeetsTheInvariants := by
  unfold Obligations.ResetMeetsTheInvariants
  rw [← launch_nil_reset]
  exact ⟨memoryCanonical_launch _ _ _ _ (Nat.zero_le _), controlSound_launch _ _ _ _, faultSound_launch _ _ _ _⟩

variable {s : State}

/-- The record is held against neither `DIRTY` nor what the host will present (10_state R42). -/
theorem faultSound_withDirty_withScript (hs : FaultSound s) (dirty : Bool) (script : List HostTurn) :
    FaultSound { s with dirty := dirty, script := script } := by
  intro hhalted
  obtain ⟨hpc, hcause⟩ := hs hhalted
  refine ⟨hpc, ?_⟩
  rw [faultOf_congr (s := s) (t := { s with dirty := dirty, script := script }) _ rfl rfl rfl]
  exact hcause

/-- Settles O53: a step keeps each invariant, a launch meets all three, and no other action writes what one reads. -/
theorem hostActionsKeepTheInvariants : Obligations.HostActionsKeepTheInvariants := by
  unfold Obligations.HostActionsKeepTheInvariants
  intro a s t hmem hcontrol hfault h
  cases a with
  | step =>
    exact ⟨stepKeepsMemoryCanonical s t hmem h, stepKeepsReturnAddressesSound s t hcontrol h,
      stepKeepsTheFaultRecordTrue s t hfault h⟩
  | dirtyClear =>
    cases h
    exact ⟨hmem, hcontrol, faultSound_withDirty_withScript hfault false s.script⟩
  | reset image font keymap =>
    rcases Nat.lt_or_ge 3584 image.length with hlong | hok
    · cases (perform_reset_of_long image font keymap s hlong).symm.trans h
    · cases (perform_reset_of_ok image font keymap s hok).symm.trans h
      exact ⟨memoryCanonical_launch image font keymap s hok, controlSound_launch image font keymap s,
        faultSound_launch image font keymap s⟩
  | schedule turns =>
    cases h
    exact ⟨hmem, hcontrol, faultSound_withDirty_withScript hfault s.dirty turns⟩

/-! ## Between steps -/

theorem sameEngine_dirtyClear (s : State) : SameEngine s s.dirtyClear :=
  ⟨fun _ _ => rfl, rfl, rfl, sameStack_refl s, fun _ => rfl, fun _ _ => rfl, sameTimers_refl s, rfl, rfl,
    Bool.noConfusion⟩

/-- Settles O54: `DIRTY_CLEAR` writes `DIRTY`, and fixing the coming inputs writes no engine state. -/
theorem hostHasNoPortIntoTheEngine : Obligations.HostHasNoPortIntoTheEngine := by
  unfold Obligations.HostHasNoPortIntoTheEngine
  intro a s t hstep hreset h
  cases a with
  | step => exact absurd rfl hstep
  | dirtyClear =>
    cases h
    exact ⟨sameEngine_dirtyClear s, rfl⟩
  | reset image font keymap => exact absurd rfl (hreset image font keymap)
  | schedule turns =>
    cases h
    exact ⟨sameEngine_refl s, rfl⟩

end Sys2Proof.Machine
end

section
/-! PROOFS. Runs of a program that has ended (70_reset R305): only the timers and `AUDIO` move. -/

namespace Sys2Proof.Machine

open Sys2Proof.Safety

variable {s t u : State}

/-- The engine state but for the timers and `AUDIO` is as it was, `DIRTY` no more set than before. -/
def SameButTimers (s t : State) : Prop :=
  SameRegsExcept [] s t ∧ t.index = s.index ∧ t.pc = s.pc ∧ SameStack s t ∧ SameBytes s t ∧ SamePixels s t ∧
    t.fault = s.fault ∧ (t.dirty = true → s.dirty = true)

theorem sameButTimers_refl (s : State) : SameButTimers s s :=
  ⟨fun _ _ => rfl, rfl, rfl, sameStack_refl s, fun _ => rfl, fun _ _ => rfl, rfl, id⟩

theorem sameButTimers_trans (h : SameButTimers s t) (h' : SameButTimers t u) : SameButTimers s u := by
  obtain ⟨hreg, hindex, hpc, ⟨hsp, hstack⟩, hbyte, hpixel, hfault, hdirty⟩ := h
  obtain ⟨hreg', hindex', hpc', ⟨hsp', hstack'⟩, hbyte', hpixel', hfault', hdirty'⟩ := h'
  exact ⟨fun r hr => (hreg' r hr).trans (hreg r hr), hindex'.trans hindex, hpc'.trans hpc,
    ⟨hsp'.trans hsp, hstack'.trans hstack⟩, fun a => (hbyte' a).trans (hbyte a),
    fun y x => (hpixel' y x).trans (hpixel y x), hfault'.trans hfault, hdirty ∘ hdirty'⟩

theorem sameButTimers_beginStep_hostTurn (s : State) : SameButTimers s s.hostTurn.beginStep := by
  obtain ⟨hreg, hindex, hpc, hstack, hbyte, hpixel, hfault, -, -, hdirty⟩ := beginStep_hostTurn_frame s
  exact ⟨fun r _ => hreg r, hindex, hpc, hstack, hbyte, hpixel, hfault, hdirty⟩

/-- Settles O56, by induction on the number of steps: each is what stands before the fetch, and the program stays
ended. -/
theorem selfJumpMovesOnlyTheTimers : Obligations.SelfJumpMovesOnlyTheTimers := by
  unfold Obligations.SelfJumpMovesOnlyTheTimers
  intro n
  induction n with
  | zero => exact fun s hended => ⟨s, rfl, hended, sameButTimers_refl s⟩
  | succ n ih =>
    intro s hended
    obtain ⟨t, hrun, hended', hsame⟩ := ih _ (ended_beginStep_hostTurn hended)
    exact ⟨t, (core_run_succ s n _ (step_ended hended)).trans hrun, hended',
      sameButTimers_trans (sameButTimers_beginStep_hostTurn s) hsame⟩

end Sys2Proof.Machine
end
